-- ==== Sys2Proof/Word.lean ====
section
/-! DEFINITION. The plainest data of the block: bytes, wire strings, id pairs. -/

namespace Sys2Proof

/-- A byte is 8 bits (00_scope R7). -/
abbrev Byte := BitVec 8

/-- A wire string: a finite sequence of characters held one per byte (00_scope R8). R8's characters are 7-bit codes; the type also
holds the bytes 0x80 to 0xFF, which the operations accept as characters (DESIGN CHOICE, unsafe: log 16). -/
abbrev WireString := List Byte

/-- An id pair `(hi, lo)` (10_state R27, 30_encoding R106). -/
structure IdPair where
  hi : Byte
  lo : Byte
deriving DecidableEq, Repr, Inhabited

end Sys2Proof
end

