-- ==== Sys2Proof/Config.lean ====
section
/-! DEFINITION. What an implementation fixes (00_scope R6, 10_state R40) and the free values the spec leaves to the
environment. Constants the spec gives stand here; what it leaves OPEN is a field of `Params`, held in State as plain data
that no step changes, so that a statement over every state is a statement over every parameter value. -/

namespace Sys2Proof

namespace Config

/-- `REC_BYTES` (00_scope R6, decision D11). -/
def recBytes : Nat := 13
/-- `T_TX_MS` (00_scope R6). -/
def tTxMs : Nat := 100
/-- `ENUM_FIRST` (00_scope R6, decision D29). -/
def enumFirst : Nat := 1
/-- `ENUM_LAST` (00_scope R6, decision D29). -/
def enumLast : Nat := 127
/-- `ID_SHIFT` (00_scope R6, decision D3). -/
def idShift : Nat := 5
/-- `PRIO_HIGH` as a label (00_scope R6, decision D18). -/
def prioHigh : Nat := 3
/-- `PRIO_RETRY` as a label (00_scope R6, decision D18). -/
def prioRetry : Nat := 2

end Config

/-- `IRQ_MASKED_EDGE` (00_scope R6, decision D16). -/
inductive MaskedEdge
  | latch
  | drop
deriving DecidableEq, Repr, Inhabited

/-- A function of a list of bytes to a byte, as plain data: the form in which a profile holds its functions `rec_*` and
`mk_txrec` (10_state R40; log 3). Every function of a fixed number of bytes has such a form (Laws/Profile). -/
inductive ByteFn
  /-- A constant. -/
  | lit (v : Byte)
  /-- The input's byte at an index. -/
  | input (i : Nat)
  | and (x y : ByteFn)
  | or (x y : ByteFn)
  | xor (x y : ByteFn)
  /-- `x` where `c` is not zero, else `y`. -/
  | ite (c x y : ByteFn)
deriving DecidableEq, Repr, Inhabited

/-- The accessor functions of a receive record (10_state R48), each of the record's bytes: a flag is a byte that is not zero, the
length code counts as at most 8, `lo` is masked with `0xE0`, `data` gives the data bytes in order. -/
structure RecLayout where
  ext : ByteFn
  rtr : ByteFn
  len : ByteFn
  hi : ByteFn
  lo : ByteFn
  data : List ByteFn
deriving DecidableEq, Repr

/-- The five bytes before the data of a transmit record (10_state R49), each a function of `mk_txrec`'s arguments as bytes: the
extended and remote flags as 1 or 0, the identifier field's four bytes from its most significant on, the number of data bytes, the
data. -/
structure TxLayout where
  id0 : ByteFn
  id1 : ByteFn
  id2 : ByteFn
  id3 : ByteFn
  len : ByteFn
deriving DecidableEq, Repr

/-- The controller profile `CHIP` (10_state R40). -/
structure Chip where
  cmdReset : Byte
  cmdRead : Byte
  cmdWrite : Byte
  cmdRxRead : Byte
  cmdTxLoad : Byte
  regStatus : Byte
  statusMask : Byte
  statusExpect : Byte
  acceptAll : List (Byte × Byte)
  regInte : Byte
  inteRx : Byte
  regTxctrl : Byte
  txctrlPending : Byte
  txctrlReqHigh : Byte
  txctrlReqRetry : Byte
  txctrlReadyMask : Byte
  txctrlReadyHigh : Byte
  txctrlReadyRetry : Byte
  txctrlAbort : Byte
  regMode : Byte
  modeNormal : Byte
  modeStatMask : Byte
  modeStatNormal : Byte
  rx : RecLayout
  tx : TxLayout
deriving DecidableEq, Repr

/-- What 10_state R40 requires of any `CHIP` value. -/
def Chip.wf (c : Chip) : Bool :=
  c.txctrlReadyMask &&& c.txctrlPending == 0 && c.txctrlReqHigh &&& c.txctrlPending != 0
    && c.txctrlReqRetry &&& c.txctrlPending != 0

/-- The parameters of 00_scope R6 that are OPEN or that a model may generalise over. -/
structure Params where
  n : Nat
  tEnumMs : Nat
  tModeMs : Nat
  seenCap : Nat
  selfIdDefault : IdPair
  oscTable : List (Nat × List (Byte × Byte))
  maskedEdge : MaskedEdge
  chip : Chip
deriving DecidableEq, Repr

/-- An id pair carries no flag bits: `lo` is a multiple of 32 (10_state R27, R48). -/
def IdPair.clean (p : IdPair) : Bool := p.lo &&& 0x1F == 0

/-- `N >= 2` (00_scope R6), the chip's requirements (10_state R40), `SELF_ID_DEFAULT` an id pair (42_initialize R174). -/
def Params.wf (p : Params) : Bool := 2 ≤ p.n && p.chip.wf && p.selfIdDefault.clean

namespace Config

/-- The default layout of a receive record (10_state R48). -/
def defaultRx : RecLayout where
  ext := .and (.input 1) (.lit 0x08)
  rtr := .ite (.and (.input 1) (.lit 0x08)) (.and (.input 4) (.lit 0x40)) (.and (.input 1) (.lit 0x10))
  len := .and (.input 4) (.lit 0x0F)
  hi := .input 0
  lo := .input 1
  data := [.input 5, .input 6, .input 7, .input 8, .input 9, .input 10, .input 11, .input 12]

/-- The default layout of a transmit record (10_state R49). -/
def defaultTx : TxLayout where
  id0 := .ite (.input 0) (.input 2) (.input 4)
  id1 := .ite (.input 0) (.or (.input 3) (.lit 0x08)) (.and (.input 5) (.lit 0xE0))
  id2 := .ite (.input 0) (.input 4) (.lit 0)
  id3 := .ite (.input 0) (.input 5) (.lit 0)
  len := .or (.ite (.input 1) (.lit 0x40) (.lit 0)) (.input 6)

/-- The one concrete profile the spec offers, 93_implementation_defined G1 (PRESUMED there: general knowledge; log 4), with
the default record layouts of 10_state R48 and R49; `TXCTRL_READY(PRIO_RETRY)`, which G1 does not list and no rule reads, is the
priority bits as written, like G1's other (PRESUMED, log 4). -/
def g1 : Chip where
  cmdReset := 0xC0
  cmdRead := 0x03
  cmdWrite := 0x02
  cmdRxRead := 0x90
  cmdTxLoad := 0x40
  regStatus := 0x0E
  statusMask := 0xE0
  statusExpect := 0x80
  acceptAll := [(0x60, 0x60), (0x70, 0x60)]
  regInte := 0x2B
  inteRx := 0x01
  regTxctrl := 0x30
  txctrlPending := 0x08
  txctrlReqHigh := 0x0B
  txctrlReqRetry := 0x0A
  txctrlReadyMask := 0x03
  txctrlReadyHigh := 0x03
  txctrlReadyRetry := 0x02
  txctrlAbort := 0x00
  regMode := 0x0F
  modeNormal := 0x00
  modeStatMask := 0xE0
  modeStatNormal := 0x00
  rx := defaultRx
  tx := defaultTx

/-- `OSC_TABLE` of 93_implementation_defined G1. -/
def g1OscTable : List (Nat × List (Byte × Byte)) :=
  [(16000000, [(0x2A, 0x03), (0x29, 0xF0), (0x28, 0x86)]),
   (8000000, [(0x2A, 0x01), (0x29, 0xB1), (0x28, 0x85)]),
   (20000000, [(0x2A, 0x03), (0x29, 0xFA), (0x28, 0x87)])]

/-- The parameters `State.reset` starts with: those of the programs of 95_test_vectors Part C (DESIGN CHOICE, log 4). No
statement rests on them. -/
def params : Params where
  n := 4
  tEnumMs := 100
  tModeMs := 100
  seenCap := 128
  selfIdDefault := ⟨0, 32⟩
  oscTable := g1OscTable
  maskedEdge := .latch
  chip := g1

end Config

/-- Whose move is next at a micro-step boundary (20_memory R71, R80; 60_exceptions R251, R252, R264; 70_reset R280). -/
inductive Turn
  /-- POLL: its next micro-step, or the next operation of the issue stream. -/
  | run
  /-- IRQ: the handler, if deliverable. -/
  | irq
  /-- TIMER: the timer callback, if due. -/
  | timer
  /-- ENV: a falling edge on the interrupt line. -/
  | edge
  /-- ENV: the oldest id pair handed to durable storage is made durable or lost. -/
  | settle
  /-- ENV: the program is restarted (power-on). -/
  | restart
deriving DecidableEq, Repr, Inhabited

namespace Config

/-- Free value: the agent that moves when the script names none (93 U2, U4, U5; log 1). -/
opaque freeTurn : Nat → Turn
/-- Free value: a byte the controller answers (93 U1; 41_bus_transactions R150; log 1). -/
opaque freeByte : Nat → Byte
/-- Free value: the milliseconds that pass before a read of the clock (93 U3; 60_exceptions R262; log 1). -/
opaque freeTick : Nat → Nat
/-- Free value: whether an access to durable storage succeeds (93 U25; log 1). -/
opaque freeStore : Nat → Bool
/-- Free value: a ring byte that nothing has written (93 U12; 10_state R23; log 5). -/
opaque unwrittenByte : Nat → Byte

end Config

end Sys2Proof
end

