-- ==== Sys2Proof/Syntax.lean ====
section
/-! DEFINITION. The operations of the block as syntax: one constructor per row of spec/opcode_table.json. -/

namespace Sys2Proof

/-- The two priority levels of a transmit request (00_scope R6: `PRIO_HIGH`, `PRIO_RETRY`). -/
inductive Prio
  | high
  | retry
deriving DecidableEq, Repr, Inhabited

/-- Every row of the operation table (00_scope R2, 30_encoding R91, R108, R110, R113, 41_bus_transactions). -/
inductive Instr
  /-- ENCODE(ext, id, opcode, payload), 40_codec R130. -/
  | encode (ext : Bool) (id : BitVec 32) (opcode : Byte) (payload : List Byte)
  /-- DECODE(w), 40_codec R135. -/
  | decode (w : WireString)
  /-- INITIALIZE(busHandle, chipSelect, interruptLine, oscillatorHz), 42_initialize R170. -/
  | initDriver (busHandle chipSelect interruptLine : BitVec 32) (oscillatorHz : Nat)
  /-- SEND(w), 43_send R180. -/
  | send (w : WireString)
  /-- RECEIVE(), 44_receive_path R210. -/
  | receive
  /-- AVAILABLE(), 44_receive_path R215. -/
  | available
  /-- IRQ_HANDLER(), 44_receive_path R200. -/
  | irqHandler
  /-- RUN_ENUMERATION(), 45_enumeration R222. -/
  | runEnumeration
  /-- TX_FIRE(t), 43_send R192. -/
  | txFire (t : List Byte)
  /-- Wire format SN: standard, normal, 30_encoding R91. -/
  | wireSN (idfield : BitVec 16) (data : List Byte)
  /-- Wire format SR: standard, remote, 30_encoding R91. -/
  | wireSR (idfield : BitVec 16) (data : List Byte)
  /-- Wire format XN: extended, normal, 30_encoding R91. -/
  | wireXN (idfield : BitVec 32) (data : List Byte)
  /-- Wire format XR: extended, remote, 30_encoding R91. -/
  | wireXR (idfield : BitVec 32) (data : List Byte)
  /-- Pseudo-frame OWN_ID(selfId), 30_encoding R110. -/
  | ownId
  /-- Pseudo-frame COLLISION_RTR(selfId), 30_encoding R110. -/
  | collisionRtr
  /-- REG_READ(a), 41_bus_transactions R152. -/
  | regRead (a : Byte)
  /-- REG_WRITE(a, v), 41_bus_transactions R153. -/
  | regWrite (a v : Byte)
  /-- CHIP_RESET(), 41_bus_transactions R154. -/
  | chipReset
  /-- RX_READ(), 41_bus_transactions R155. -/
  | rxRead
  /-- TX_LOAD(t), 41_bus_transactions R156. -/
  | txLoad (t : List Byte)
  /-- TX_REQUEST(p), 41_bus_transactions R157. -/
  | txRequest (p : Prio)
  /-- TX_ABORT(), 41_bus_transactions R158. -/
  | txAbort
  /-- MODE_SET(), 41_bus_transactions R159. -/
  | modeSet
  /-- CBUS opcode byte 0x0D (Query node number) with its payload bytes, 30_encoding R113, R96. -/
  | opc0D (payload : List Byte)
  /-- CBUS opcode byte 0x10 (Request parameters (report, gated by learn mode)) with its payload bytes, 30_encoding R113, R96. -/
  | opc10 (payload : List Byte)
  /-- CBUS opcode byte 0x42 (Set node number (commits new id, gated by learn mode)) with its payload bytes, 30_encoding R113, R96. -/
  | opc42 (payload : List Byte)
  /-- CBUS opcode byte 0x50 (Request new node number (enters learn mode)) with its payload bytes, 30_encoding R113, R96. -/
  | opc50 (payload : List Byte)
  /-- CBUS opcode byte 0x52 (Node-number acknowledgement (outgoing)) with its payload bytes, 30_encoding R113, R96. -/
  | opc52 (payload : List Byte)
  /-- CBUS opcode byte 0x53 (Enter learn mode) with its payload bytes, 30_encoding R113, R96. -/
  | opc53 (payload : List Byte)
  /-- CBUS opcode byte 0x54 (Exit learn mode) with its payload bytes, 30_encoding R113, R96. -/
  | opc54 (payload : List Byte)
  /-- CBUS opcode byte 0x57 (Report all events) with its payload bytes, 30_encoding R113, R96. -/
  | opc57 (payload : List Byte)
  /-- CBUS opcode byte 0x58 (Report event count) with its payload bytes, 30_encoding R113, R96. -/
  | opc58 (payload : List Byte)
  /-- CBUS opcode byte 0x71 (Read node variable(s)) with its payload bytes, 30_encoding R113, R96. -/
  | opc71 (payload : List Byte)
  /-- CBUS opcode byte 0x73 (Read one parameter by index (0 = all)) with its payload bytes, 30_encoding R113, R96. -/
  | opc73 (payload : List Byte)
  /-- CBUS opcode byte 0x90 (Accessory On (long event)) with its payload bytes, 30_encoding R113, R96. -/
  | opc90 (payload : List Byte)
  /-- CBUS opcode byte 0x91 (Accessory Off (long event)) with its payload bytes, 30_encoding R113, R96. -/
  | opc91 (payload : List Byte)
  /-- CBUS opcode byte 0x95 (Un-teach (remove) event) with its payload bytes, 30_encoding R113, R96. -/
  | opc95 (payload : List Byte)
  /-- CBUS opcode byte 0x96 (Write node variable) with its payload bytes, 30_encoding R113, R96. -/
  | opc96 (payload : List Byte)
  /-- CBUS opcode byte 0x98 (Accessory On (short event)) with its payload bytes, 30_encoding R113, R96. -/
  | opc98 (payload : List Byte)
  /-- CBUS opcode byte 0x99 (Accessory Off (short event)) with its payload bytes, 30_encoding R113, R96. -/
  | opc99 (payload : List Byte)
  /-- CBUS opcode byte 0x9C (Read event-variable(s)) with its payload bytes, 30_encoding R113, R96. -/
  | opc9C (payload : List Byte)
  /-- CBUS opcode byte 0xD2 (Teach event-variable) with its payload bytes, 30_encoding R113, R96. -/
  | opcD2 (payload : List Byte)
deriving DecidableEq, Repr

end Sys2Proof
end

