-- ==== Sys2Proof/WellFormed.lean ====
section
/-! DEFINITION. Which operand values the spec allows an operation to have (a Bool, so that it decides). -/

namespace Sys2Proof

/-- A transmit record has `5 + len` bytes, `len` in 0..8 (10_state R49, 41_bus_transactions R156). -/
def txRecordOk (t : List Byte) : Bool := 5 ≤ t.length && t.length ≤ 13

/-- A payload after an opcode byte has 0 to 7 bytes (30_encoding R96). -/
def payloadOk (payload : List Byte) : Bool := payload.length ≤ 7

/-- The data field of a wire frame has 0 to 8 bytes (30_encoding R91). -/
def dataOk (data : List Byte) : Bool := data.length ≤ 8

/-- The `require` lines of ENCODE (40_codec R130); an extended `id` is 32 bits by its type. -/
def encodeArgsOk (ext : Bool) (id : BitVec 32) (payload : List Byte) : Bool :=
  (ext || id.toNat ≤ 0x7FF) && payloadOk payload

/-- Well-formed operations: every operand is one the spec allows. -/
def Instr.wf : Instr → Bool
  | .encode ext id _ payload => encodeArgsOk ext id payload
  | .decode _ => true
  | .initDriver _ _ _ _ => true
  | .send _ => true
  | .receive => true
  | .available => true
  | .irqHandler => true
  | .runEnumeration => true
  | .txFire t => txRecordOk t
  | .wireSN _ data => dataOk data
  | .wireSR _ data => dataOk data
  | .wireXN _ data => dataOk data
  | .wireXR _ data => dataOk data
  | .ownId => true
  | .collisionRtr => true
  | .regRead _ => true
  | .regWrite _ _ => true
  | .chipReset => true
  | .rxRead => true
  | .txLoad t => txRecordOk t
  | .txRequest _ => true
  | .txAbort => true
  | .modeSet => true
  | .opc0D payload => payloadOk payload
  | .opc10 payload => payloadOk payload
  | .opc42 payload => payloadOk payload
  | .opc50 payload => payloadOk payload
  | .opc52 payload => payloadOk payload
  | .opc53 payload => payloadOk payload
  | .opc54 payload => payloadOk payload
  | .opc57 payload => payloadOk payload
  | .opc58 payload => payloadOk payload
  | .opc71 payload => payloadOk payload
  | .opc73 payload => payloadOk payload
  | .opc90 payload => payloadOk payload
  | .opc91 payload => payloadOk payload
  | .opc95 payload => payloadOk payload
  | .opc96 payload => payloadOk payload
  | .opc98 payload => payloadOk payload
  | .opc99 payload => payloadOk payload
  | .opc9C payload => payloadOk payload
  | .opcD2 payload => payloadOk payload

end Sys2Proof
end

