-- ==== Sys2Proof/Decode.lean ====
section
/-! DEFINITION. The encodings of 30_encoding.md: hex text, the shape check, the four wire formats, the byte patterns of the
bus transactions; and the issue stream, the model's own byte form of a sequence of operations (log 2): `decode`, `encode`. -/

namespace Sys2Proof

/-! ### Errors (60_exceptions R242) -/

/-- The six error names (00_scope R10, 60_exceptions R242). -/
inductive CtbError
  | controllerNotPresent
  | transmitTimeout
  | malformedFrame
  | nonHexDigits
  | frameTooShort
  | unrecognizedFrameKind
deriving DecidableEq, Repr, Inhabited

/-- The code numbers of 60_exceptions R242. -/
def CtbError.code : CtbError → Nat
  | .controllerNotPresent => 1
  | .transmitTimeout => 2
  | .malformedFrame => 3
  | .nonHexDigits => 4
  | .frameTooShort => 5
  | .unrecognizedFrameKind => 6

/-- `isShapeError` (30_encoding R103). -/
def isShapeError : CtbError → Bool
  | .controllerNotPresent => false
  | .transmitTimeout => false
  | .malformedFrame => true
  | .nonHexDigits => true
  | .frameTooShort => true
  | .unrecognizedFrameKind => true

/-! ### Hex text (00_scope R8, 30_encoding R100, R101) -/

/-- The character `:`. -/
def chColon : Byte := 0x3A
/-- The character `;`. -/
def chSemi : Byte := 0x3B
/-- The marker `S`. -/
def chS : Byte := 0x53
/-- The marker `X`. -/
def chX : Byte := 0x58
/-- The marker `N`. -/
def chN : Byte := 0x4E
/-- The marker `R`. -/
def chR : Byte := 0x52

/-- A hex digit: `0`-`9`, `A`-`F` or `a`-`f` (00_scope R8). -/
def isHex (c : Byte) : Bool :=
  (0x30 ≤ c.toNat && c.toNat ≤ 0x39) || (0x41 ≤ c.toNat && c.toNat ≤ 0x46)
    || (0x61 ≤ c.toNat && c.toNat ≤ 0x66)

/-- `hexval(c)` of a hex digit (00_scope R8); of another character it is asked by no rule. -/
def hexVal (c : Byte) : Nat :=
  if c.toNat ≤ 0x39 then c.toNat - 0x30
  else if c.toNat ≤ 0x46 then c.toNat - 0x37
  else c.toNat - 0x57

/-- The upper-case hex digit of a value 0..15 (00_scope R8). -/
def hexDigit (v : Nat) : Byte := if v < 10 then BitVec.ofNat 8 (0x30 + v) else BitVec.ofNat 8 (0x37 + v)

/-- `hex2(b)`: high nibble first (00_scope R8). -/
def hex2 (b : Byte) : WireString := [hexDigit (b.toNat / 16), hexDigit (b.toNat % 16)]

/-- `hex2` of each byte in order. -/
def hexBytes (bs : List Byte) : WireString := bs.flatMap hex2

/-- `unhex(s)`: byte `i` is `hexval(s[2i]) * 16 + hexval(s[2i+1])` (00_scope R8). -/
def unhex : WireString → List Byte
  | a :: b :: rest => BitVec.ofNat 8 (hexVal a * 16 + hexVal b) :: unhex rest
  | _ => []

/-- The number a run of hex digits writes, most significant digit first (30_encoding R100). -/
def hexNumber (digits : WireString) : Nat := digits.foldl (fun acc c => acc * 16 + hexVal c) 0

/-- The two bytes of a standard identifier field, most significant first (20_memory R60). -/
def bytes2 (f : BitVec 16) : List Byte := [f.extractLsb' 8 8, f.extractLsb' 0 8]

/-- The four bytes of a 32-bit field, most significant first (20_memory R60). -/
def bytes4 (x : BitVec 32) : List Byte :=
  [x.extractLsb' 24 8, x.extractLsb' 16 8, x.extractLsb' 8 8, x.extractLsb' 0 8]

/-! ### The wire frame (30_encoding R90 to R92) -/

/-- The text of a frame from its identifier bytes (two of a standard, four of an extended identifier) and data. -/
def frameText (ext : Bool) (idBytes : List Byte) (rtr : Bool) (data : List Byte) : WireString :=
  chColon :: (if ext then chX else chS) :: (hexBytes idBytes ++ (if rtr then chR else chN) :: (hexBytes data ++ [chSemi]))

/-- What the shape check returns of an accepted string; a standard identifier field is its 16 bits zero-extended. -/
structure Parsed where
  ext : Bool
  idfield : BitVec 32
  rtr : Bool
  data : List Byte
deriving DecidableEq, Repr, Inhabited

/-- Check 3: the number of identifier characters the first marker announces. -/
def idWidth (c : Byte) : Option Nat := if c = chS then some 4 else if c = chX then some 8 else none

/-- The shape check: eight checks in order, the first failure reported (30_encoding R103, 60_exceptions R247).
A byte 0x80 to 0xFF, which 00_scope R8 has as no character, fails the checks as any character that is no hex digit and no marker
does (DESIGN CHOICE, unsafe: log 16). -/
def checkShape (w : WireString) : Except CtbError Parsed :=
  if w.length < 8 then .error .frameTooShort
  else if w.getD 0 0 ≠ chColon ∨ w.getD (w.length - 1) 0 ≠ chSemi then .error .malformedFrame
  else
    match idWidth (w.getD 1 0) with
    | none => .error .unrecognizedFrameKind
    | some k =>
      if w.length < k + 4 then .error .frameTooShort
      else if ((w.drop 2).take k).all isHex = false then .error .nonHexDigits
      else if w.getD (2 + k) 0 ≠ chN ∧ w.getD (2 + k) 0 ≠ chR then .error .unrecognizedFrameKind
      else
        let p := (w.drop (3 + k)).take (w.length - 1 - (3 + k))
        if p.all isHex = false then .error .nonHexDigits
        else if p.length % 2 = 1 ∨ 16 < p.length then .error .malformedFrame
        else .ok ⟨k = 8, BitVec.ofNat 32 (hexNumber ((w.drop 2).take k)), w.getD (2 + k) 0 = chR, unhex p⟩

/-! ### The issue stream (log 2)

The spec numbers the nine operations with a selector (30_encoding R108) and keys the other rows by their own text or byte;
it gives operands no binary form. In the stream an operation is a key byte and then its operands: the selector, the `:` of a
wire frame (whose text is R91's), a CBUS opcode byte (R113) with a count byte and its payload, or one of the model's own keys
0xE0 to 0xE9 for the bus transactions and pseudo-frames, whose own byte patterns (R152 to R159) depend on `CHIP`. -/

/-- Why a stream is no operation. -/
inductive DecodeError
  /-- The first byte is no key. -/
  | unknownKey (b : Byte)
  /-- The stream ends inside the operation. -/
  | truncated
  /-- An operand byte has none of its legal values. -/
  | badOperand
  /-- A wire frame's text fails the shape check. -/
  | badShape (e : CtbError)
deriving DecidableEq, Repr, Inhabited

/-- The bytes of a 32-bit operand, read back. -/
def word4 (a b c d : Byte) : BitVec 32 := a ++ b ++ c ++ d

/-- Take exactly `k` bytes. -/
def takeExact (k : Nat) (bs : List Byte) : Except DecodeError (List Byte × List Byte) :=
  if bs.length < k then .error .truncated else .ok (bs.take k, bs.drop k)

/-- A count byte and that many bytes, handed to `mk`. -/
def decodeCounted (mk : List Byte → Instr) : List Byte → Except DecodeError (Instr × List Byte)
  | [] => .error .truncated
  | c :: rest =>
    match takeExact c.toNat rest with
    | .error e => .error e
    | .ok (bs, rest') => .ok (mk bs, rest')

/-- A transmit record: the number of its data bytes, then the five fixed bytes and the data (10_state R49). -/
def decodeRecord (mk : List Byte → Instr) : List Byte → Except DecodeError (Instr × List Byte)
  | [] => .error .truncated
  | c :: rest =>
    match takeExact (c.toNat + 5) rest with
    | .error e => .error e
    | .ok (bs, rest') => .ok (mk bs, rest')

/-- A string of any length: before each character the byte 1, after the last the byte 0. -/
def decodeChars : List Byte → Except DecodeError (WireString × List Byte)
  | [] => .error .truncated
  | [m] => if m = 0 then .ok ([], []) else .error .truncated
  | m :: c :: rest =>
    if m = 0 then .ok ([], c :: rest)
    else if m = 1 then
      match decodeChars rest with
      | .error e => .error e
      | .ok (w, rest') => .ok (c :: w, rest')
    else .error .badOperand

/-- A string, handed to `mk`. -/
def decodeString (mk : WireString → Instr) (bs : List Byte) : Except DecodeError (Instr × List Byte) :=
  match decodeChars bs with
  | .error e => .error e
  | .ok (w, rest) => .ok (mk w, rest)

/-- The number that base-256 digits write, the first digit its least significant. -/
def numberOf (digits : List Byte) : Nat := digits.foldr (fun d acc => d.toNat + 256 * acc) 0

/-- ENCODE's operands. -/
def decodeEncode : List Byte → Except DecodeError (Instr × List Byte)
  | x :: a :: b :: c :: d :: op :: rest =>
    if x = 0 then decodeCounted (Instr.encode false (word4 a b c d) op) rest
    else if x = 1 then decodeCounted (Instr.encode true (word4 a b c d) op) rest
    else .error .badOperand
  | _ => .error .truncated

/-- INITIALIZE's operands: three handles of four bytes, then the digits of the oscillator frequency as a string. -/
def decodeInit : List Byte → Except DecodeError (Instr × List Byte)
  | a0 :: a1 :: a2 :: a3 :: b0 :: b1 :: b2 :: b3 :: c0 :: c1 :: c2 :: c3 :: rest =>
    decodeString
      (fun digits => .initDriver (word4 a0 a1 a2 a3) (word4 b0 b1 b2 b3) (word4 c0 c1 c2 c3) (numberOf digits)) rest
  | _ => .error .truncated

/-- The text up to and with the first `;`, and what follows it. -/
def splitFrame : List Byte → Option (WireString × List Byte)
  | [] => none
  | c :: rest =>
    if c = chSemi then some ([c], rest)
    else
      match splitFrame rest with
      | none => none
      | some (w, rest') => some (c :: w, rest')

/-- The wire-format row of a parsed frame (30_encoding R91). -/
def wireInstr (c : Parsed) : Instr :=
  match c.ext, c.rtr with
  | false, false => .wireSN (c.idfield.setWidth 16) c.data
  | false, true => .wireSR (c.idfield.setWidth 16) c.data
  | true, false => .wireXN c.idfield c.data
  | true, true => .wireXR c.idfield c.data

/-- A wire frame in the stream: its text, checked by the one shape check. -/
def decodeFrame (bs : List Byte) : Except DecodeError (Instr × List Byte) :=
  match splitFrame bs with
  | none => .error .truncated
  | some (w, rest) =>
    match checkShape w with
    | .error e => .error (.badShape e)
    | .ok c => .ok (wireInstr c, rest)

/-- REG_READ's operand. -/
def decodeRegRead : List Byte → Except DecodeError (Instr × List Byte)
  | a :: rest => .ok (.regRead a, rest)
  | [] => .error .truncated

/-- REG_WRITE's operands. -/
def decodeRegWrite : List Byte → Except DecodeError (Instr × List Byte)
  | a :: v :: rest => .ok (.regWrite a v, rest)
  | _ => .error .truncated

/-- TX_REQUEST's operand: the label of the priority level (00_scope R6). -/
def decodeTxRequest : List Byte → Except DecodeError (Instr × List Byte)
  | p :: rest =>
    if p.toNat = Config.prioHigh then .ok (.txRequest .high, rest)
    else if p.toNat = Config.prioRetry then .ok (.txRequest .retry, rest)
    else .error .badOperand
  | [] => .error .truncated

/-- The next operation of the stream and what follows it; total on any bytes. -/
def decode : List Byte → Except DecodeError (Instr × List Byte)
  | [] => .error .truncated
  | k :: rest =>
    match k.toNat with
    | 0x00 => decodeEncode rest
    | 0x01 => decodeString Instr.decode rest
    | 0x02 => decodeInit rest
    | 0x03 => decodeString Instr.send rest
    | 0x04 => .ok (.receive, rest)
    | 0x05 => .ok (.available, rest)
    | 0x08 => .ok (.irqHandler, rest)
    | 0x09 => .ok (.runEnumeration, rest)
    | 0x0A => decodeRecord Instr.txFire rest
    | 0x3A => decodeFrame (k :: rest)
    | 0xE0 => decodeRegRead rest
    | 0xE1 => decodeRegWrite rest
    | 0xE2 => .ok (.chipReset, rest)
    | 0xE3 => .ok (.rxRead, rest)
    | 0xE4 => decodeRecord Instr.txLoad rest
    | 0xE5 => decodeTxRequest rest
    | 0xE6 => .ok (.txAbort, rest)
    | 0xE7 => .ok (.modeSet, rest)
    | 0xE8 => .ok (.ownId, rest)
    | 0xE9 => .ok (.collisionRtr, rest)
    | 0x0D => decodeCounted Instr.opc0D rest
    | 0x10 => decodeCounted Instr.opc10 rest
    | 0x42 => decodeCounted Instr.opc42 rest
    | 0x50 => decodeCounted Instr.opc50 rest
    | 0x52 => decodeCounted Instr.opc52 rest
    | 0x53 => decodeCounted Instr.opc53 rest
    | 0x54 => decodeCounted Instr.opc54 rest
    | 0x57 => decodeCounted Instr.opc57 rest
    | 0x58 => decodeCounted Instr.opc58 rest
    | 0x71 => decodeCounted Instr.opc71 rest
    | 0x73 => decodeCounted Instr.opc73 rest
    | 0x90 => decodeCounted Instr.opc90 rest
    | 0x91 => decodeCounted Instr.opc91 rest
    | 0x95 => decodeCounted Instr.opc95 rest
    | 0x96 => decodeCounted Instr.opc96 rest
    | 0x98 => decodeCounted Instr.opc98 rest
    | 0x99 => decodeCounted Instr.opc99 rest
    | 0x9C => decodeCounted Instr.opc9C rest
    | 0xD2 => decodeCounted Instr.opcD2 rest
    | _ => .error (.unknownKey k)

/-! ### The encoder -/

/-- The bytes of a number, the first byte its least significant (the table's numbering of bits, too). -/
def bytesOf : Nat → Nat → List Byte
  | 0, _ => []
  | k + 1, w => BitVec.ofNat 8 w :: bytesOf k (w / 256)

/-- All base-256 digits of a number. -/
def digitsOf (n : Nat) : List Byte := bytesOf (Nat.log2 n / 8 + 1) n

/-- A string of any length, in the stream. -/
def encodeChars (w : WireString) : List Byte := w.flatMap (fun c => [1, c]) ++ [0]

/-- A count byte and the bytes. -/
def counted (bs : List Byte) : List Byte := BitVec.ofNat 8 bs.length :: bs

/-- A transmit record with the number of its data bytes before it. -/
def countedRecord (t : List Byte) : List Byte := BitVec.ofNat 8 (t.length - 5) :: t

/-- The bytes of an operation in the issue stream. -/
def encode : Instr → List Byte
  | .encode ext id opcode payload => 0x00 :: (if ext then 1 else 0) :: (bytes4 id ++ opcode :: counted payload)
  | .decode w => 0x01 :: encodeChars w
  | .initDriver b c i hz => 0x02 :: (bytes4 b ++ bytes4 c ++ bytes4 i ++ encodeChars (digitsOf hz))
  | .send w => 0x03 :: encodeChars w
  | .receive => [0x04]
  | .available => [0x05]
  | .irqHandler => [0x08]
  | .runEnumeration => [0x09]
  | .txFire t => 0x0A :: countedRecord t
  | .wireSN f data => frameText false (bytes2 f) false data
  | .wireSR f data => frameText false (bytes2 f) true data
  | .wireXN x data => frameText true (bytes4 x) false data
  | .wireXR x data => frameText true (bytes4 x) true data
  | .ownId => [0xE8]
  | .collisionRtr => [0xE9]
  | .regRead a => [0xE0, a]
  | .regWrite a v => [0xE1, a, v]
  | .chipReset => [0xE2]
  | .rxRead => [0xE3]
  | .txLoad t => 0xE4 :: countedRecord t
  | .txRequest .high => [0xE5, 3]
  | .txRequest .retry => [0xE5, 2]
  | .txAbort => [0xE6]
  | .modeSet => [0xE7]
  | .opc0D payload => 0x0D :: counted payload
  | .opc10 payload => 0x10 :: counted payload
  | .opc42 payload => 0x42 :: counted payload
  | .opc50 payload => 0x50 :: counted payload
  | .opc52 payload => 0x52 :: counted payload
  | .opc53 payload => 0x53 :: counted payload
  | .opc54 payload => 0x54 :: counted payload
  | .opc57 payload => 0x57 :: counted payload
  | .opc58 payload => 0x58 :: counted payload
  | .opc71 payload => 0x71 :: counted payload
  | .opc73 payload => 0x73 :: counted payload
  | .opc90 payload => 0x90 :: counted payload
  | .opc91 payload => 0x91 :: counted payload
  | .opc95 payload => 0x95 :: counted payload
  | .opc96 payload => 0x96 :: counted payload
  | .opc98 payload => 0x98 :: counted payload
  | .opc99 payload => 0x99 :: counted payload
  | .opc9C payload => 0x9C :: counted payload
  | .opcD2 payload => 0xD2 :: counted payload

/-- The key byte an operation's encoding starts with. -/
def keyByte : Instr → Byte
  | .encode _ _ _ _ => 0x00
  | .decode _ => 0x01
  | .initDriver _ _ _ _ => 0x02
  | .send _ => 0x03
  | .receive => 0x04
  | .available => 0x05
  | .irqHandler => 0x08
  | .runEnumeration => 0x09
  | .txFire _ => 0x0A
  | .wireSN _ _ => 0x3A
  | .wireSR _ _ => 0x3A
  | .wireXN _ _ => 0x3A
  | .wireXR _ _ => 0x3A
  | .ownId => 0xE8
  | .collisionRtr => 0xE9
  | .regRead _ => 0xE0
  | .regWrite _ _ => 0xE1
  | .chipReset => 0xE2
  | .rxRead => 0xE3
  | .txLoad _ => 0xE4
  | .txRequest _ => 0xE5
  | .txAbort => 0xE6
  | .modeSet => 0xE7
  | .opc0D _ => 0x0D
  | .opc10 _ => 0x10
  | .opc42 _ => 0x42
  | .opc50 _ => 0x50
  | .opc52 _ => 0x52
  | .opc53 _ => 0x53
  | .opc54 _ => 0x54
  | .opc57 _ => 0x57
  | .opc58 _ => 0x58
  | .opc71 _ => 0x71
  | .opc73 _ => 0x73
  | .opc90 _ => 0x90
  | .opc91 _ => 0x91
  | .opc95 _ => 0x95
  | .opc96 _ => 0x96
  | .opc98 _ => 0x98
  | .opc99 _ => 0x99
  | .opc9C _ => 0x9C
  | .opcD2 _ => 0xD2

/-! ### The byte patterns of the bus transactions (41_bus_transactions R152 to R159) -/

/-- `TXCTRL_REQ(p)` (10_state R40). -/
def Chip.txctrlReq (c : Chip) : Prio → Byte
  | .high => c.txctrlReqHigh
  | .retry => c.txctrlReqRetry

/-- The bytes a bus transaction writes under a profile; of MODE_SET, its one write (R159). -/
def busBytes (c : Chip) : Instr → Option (List Byte)
  | .regRead a => some [c.cmdRead, a]
  | .regWrite a v => some [c.cmdWrite, a, v]
  | .chipReset => some [c.cmdReset]
  | .rxRead => some [c.cmdRxRead]
  | .txLoad t => some (c.cmdTxLoad :: t)
  | .txRequest p => some [c.cmdWrite, c.regTxctrl, c.txctrlReq p]
  | .txAbort => some [c.cmdWrite, c.regTxctrl, c.txctrlAbort]
  | .modeSet => some [c.cmdWrite, c.regMode, c.modeNormal]
  | .encode _ _ _ _ => none
  | .decode _ => none
  | .initDriver _ _ _ _ => none
  | .send _ => none
  | .receive => none
  | .available => none
  | .irqHandler => none
  | .runEnumeration => none
  | .txFire _ => none
  | .wireSN _ _ => none
  | .wireSR _ _ => none
  | .wireXN _ _ => none
  | .wireXR _ _ => none
  | .ownId => none
  | .collisionRtr => none
  | .opc0D _ => none
  | .opc10 _ => none
  | .opc42 _ => none
  | .opc50 _ => none
  | .opc52 _ => none
  | .opc53 _ => none
  | .opc54 _ => none
  | .opc57 _ => none
  | .opc58 _ => none
  | .opc71 _ => none
  | .opc73 _ => none
  | .opc90 _ => none
  | .opc91 _ => none
  | .opc95 _ => none
  | .opc96 _ => none
  | .opc98 _ => none
  | .opc99 _ => none
  | .opc9C _ => none
  | .opcD2 _ => none

/-! ### The table's own words -/

/-- A table word laid out in the stream: its bytes, then operand bytes of zeros. -/
def tableStream (nbits w : Nat) : List Byte := bytesOf ((nbits + 7) / 8) w ++ List.replicate 32 0

/-- The operation the decoder reads from a table word. -/
def decodeTableWord (nbits w : Nat) : Option Instr :=
  match decode (tableStream nbits w) with
  | .ok (i, _) => some i
  | .error _ => none

end Sys2Proof
end

