-- ==== Sys2Proof/Machine/State.lean ====
section
/-! DEFINITION. The state of the block, of the controller as the block has written it, of the environment's script, and
the machine right after power-on. Plain data throughout. -/

namespace Sys2Proof.Machine

/-- Byte-addressed storage: strictly rising addresses; an unlisted address holds no value (10_state R23, R53; log 5). -/
abbrev Memory := List Host.Cell

/-- The one canonical form of a memory: addresses strictly rising. -/
def Memory.wf : Memory → Bool
  | [] => true
  | [_] => true
  | c :: d :: rest => decide (c.1 < d.1) && Memory.wf (d :: rest)

/-- The lifecycle (10_state R22). -/
inductive Mode
  | uninit
  | ready
deriving DecidableEq, Repr, Inhabited

/-- The four arguments of INITIALIZE (10_state R21). -/
structure Cfg where
  busHandle : BitVec 32
  chipSelect : BitVec 32
  interruptLine : BitVec 32
  oscillatorHz : Nat
deriving DecidableEq, Repr, Inhabited

/-- The block's own state (10_state R20 to R34). `given` is what INITIALIZE's assignment of `cfg` last left (42_initialize R170), and
is read through `State.cfg` alone. -/
structure Driver where
  mode : Mode
  given : Option Cfg
  slots : Nat
  ring : Memory
  wr : Nat
  rd : Nat
  selfId : IdPair
  seen : List IdPair
  enum : Bool
  absent : Bool
  irqEnabled : Bool
  irqMask : Bool
  irqPend : Bool
  timerArmed : Bool
  timerDeadline : Nat
deriving DecidableEq, Repr

/-- The controller as the block has driven it: the chip-select line (41_bus_transactions R150, R151), the registers as last
written and the transmit buffer as last loaded (10_state R42 to R47, R53). What a read answers is the environment's (R152). -/
structure ChipImage where
  cs : Bool
  regs : Memory
  txBuf : Memory
deriving DecidableEq, Repr

/-- The environment: the clock (60_exceptions R262), durable storage (10_state R50) with the id pairs handed to it that are not
settled yet, oldest first (20_memory R80, 45_enumeration R228), and the script of its free choices with the counter that free
values are applied to when a script is used up (log 1). -/
structure Env where
  clock : Nat
  storage : Option IdPair
  handed : List IdPair
  turns : List Turn
  answers : List Byte
  ticks : List Nat
  stores : List Bool
  drawn : Nat
deriving DecidableEq, Repr

/-- The execution contexts (60_exceptions R260): whose code makes the next call. -/
inductive Context
  /-- The poll loop, and inside it INITIALIZE and SEND. -/
  | poll
  /-- The interrupt context. -/
  | irq
  /-- The timer callback. -/
  | timer
deriving DecidableEq, Repr, Inhabited

/-- SEND's attempts (43_send R181, step S6). -/
inductive Attempt
  | first
  | second
deriving DecidableEq, Repr, Inhabited

/-- POLL's position inside a multi-step operation, with the operation's temporaries (10_state R22 (c), R35): the micro-step
that is next. -/
inductive PollPos
  /-- No operation in progress. -/
  | idle
  /-- INITIALIZE step 1 (42_initialize R170). -/
  | initReset
  /-- INITIALIZE step 2. -/
  | initStatus
  /-- INITIALIZE steps 3 to 5: the register writes still to be made, in order. -/
  | initWrites (ws : List (Byte × Byte))
  /-- INITIALIZE step 6: MODE_SET's register write (41_bus_transactions R159). -/
  | modeWrite
  /-- MODE_SET's `t0 <- now()`. -/
  | modeClock
  /-- MODE_SET's status poll. -/
  | modeRead (t0 : Nat)
  /-- MODE_SET's time test. -/
  | modeTime (t0 : Nat)
  /-- INITIALIZE step 7. -/
  | initState
  /-- INITIALIZE step 8. -/
  | initRegister
  /-- SEND S2 (43_send R181). -/
  | sendAbsent (c : Parsed)
  /-- SEND S3. -/
  | sendRecord (c : Parsed)
  /-- SEND S4. -/
  | sendMask (t : List Byte)
  /-- SEND S5. -/
  | sendLoad (t : List Byte)
  /-- SEND S6a. -/
  | sendRequest (a : Attempt)
  /-- SEND S6b. -/
  | sendReadback
  /-- SEND S6c. -/
  | sendClock (a : Attempt)
  /-- SEND S6d, the read of the transmit-control register and the pending test. -/
  | sendPoll (a : Attempt) (t0 : Nat)
  /-- SEND S6d, the time test. -/
  | sendTime (a : Attempt) (t0 : Nat)
  /-- SEND S6e. -/
  | sendAbort (a : Attempt)
  /-- SEND S7. -/
  | sendGiveUp
  /-- RECEIVE V2 (44_receive_path R210). -/
  | recvCompare (w0 : Nat)
  /-- RECEIVE V3, with the bytes copied so far. -/
  | recvCopy (b : List Byte)
  /-- RECEIVE V4. -/
  | recvAdvance (b : List Byte)
  /-- RECEIVE V5. -/
  | recvReturn (b : List Byte)
deriving DecidableEq, Repr

/-- The frame record DECODE returns (40_codec R135). -/
structure Frame where
  ext : Bool
  rtr : Bool
  id : BitVec 32
  opcode : Option Byte
  payload : List Byte
deriving DecidableEq, Repr

/-- What an operation returns (00_scope R10, 60_exceptions R240). -/
inductive Ret
  /-- ENCODE: a wire string. -/
  | wire (w : WireString)
  /-- DECODE. -/
  | decoded (r : Except CtbError Frame)
  /-- INITIALIZE. -/
  | inited (r : Except CtbError Unit)
  /-- SEND. -/
  | sent (r : Except CtbError Unit)
  /-- RECEIVE. -/
  | received (r : Option WireString)
  /-- AVAILABLE. -/
  | count (n : Nat)
  /-- REG_READ. -/
  | byte (v : Byte)
  /-- RX_READ. -/
  | record (r : List Byte)
  /-- A bus write, which returns nothing. -/
  | done
  /-- A wire format: the frame's text and what the shape check answers for it. -/
  | frame (text : WireString) (check : Except CtbError Parsed)
  /-- A pseudo-frame: its text and its transmit record. -/
  | pseudo (text : WireString) (t : List Byte)
  /-- A CBUS opcode byte with its payload: the data field and its hex text. -/
  | data (bytes : List Byte) (text : WireString)
deriving DecidableEq, Repr

/-- The history of output events (41_bus_transactions R151, 45_enumeration R228, 60_exceptions R246), oldest first. -/
inductive Event
  /-- One bus transaction: the bytes written and the bytes read. -/
  | tx (written read : List Byte)
  /-- An id pair handed to durable storage. -/
  | persist (p : IdPair)
  /-- The one log line of controller absence. -/
  | log (e : CtbError)
  /-- The program was restarted (70_reset R280). -/
  | restart
deriving DecidableEq, Repr

/-- The machine's state. -/
structure State where
  params : Params
  drv : Driver
  chip : ChipImage
  env : Env
  ctx : Context
  poll : PollPos
  result : Option Ret
  program : List Byte
  hist : List Event
deriving DecidableEq, Repr

/-- Why the machine stops with a fault. -/
inductive Fault
  /-- Raised by IRQ_HANDLER's enqueue and RECEIVE's copy when the index names no allocated slot; 20_memory R64 says it cannot
  arise, and no state that meets the invariant reaches it. Safe: the model stops. -/
  | ringOutOfRange
deriving DecidableEq, Repr

/-- Why an operation has no meaning where it is issued. -/
inductive Refusal
  /-- Raised by exec for an operation without a meaning yet. Safe. -/
  | notModelled (mnemonic : String)
  /-- Raised by every driver operation while `mode = Uninit` (10_state R22). Safe: the spec refuses it. -/
  | notReady
  /-- Raised by a POLL operation called while POLL is inside another one: POLL is one thread (00_scope R11). Safe. -/
  | pollBusy
  /-- Raised by INITIALIZE on a live driver (42_initialize R172 (a)). Safe: the spec refuses it. -/
  | alreadyInitialized
  /-- Raised by INITIALIZE for an oscillator not in the table (42_initialize R172 (b)). Safe: the spec refuses it. -/
  | unknownOscillator
  /-- Raised by ENCODE for arguments that break a `require` (40_codec R130). Safe: the spec refuses it. -/
  | encodeArguments
  /-- Raised by TX_FIRE for bytes that are no transmit record (10_state R49). Safe. -/
  | badTransmitRecord
  /-- Raised by a CBUS opcode row with more than 7 payload bytes (30_encoding R96). Safe. -/
  | badPayload
  /-- Raised by IRQ_HANDLER where it is not deliverable (60_exceptions R252). Safe: no such step exists. -/
  | notDeliverable
  /-- Raised by RUN_ENUMERATION where the timer is not due (60_exceptions R264). Safe: no such step exists. -/
  | timerNotDue
  /-- Raised by every operation called in a context whose code does not call it (60_exceptions R260; 41_bus_transactions R161 for
  a transaction that the block's code does not make there). Safe: the spec refuses it. -/
  | wrongContext
  /-- Raised by the fetch for bytes that are no operation (log 2). Safe. -/
  | illegalEncoding (e : DecodeError)
deriving DecidableEq, Repr

/-- The driver before any INITIALIZE (10_state R53, "Power-on"; the unset values are log 6's). -/
def Driver.powerOn : Driver where
  mode := .uninit
  given := none
  slots := 0
  ring := []
  wr := 0
  rd := 0
  selfId := ⟨0, 0⟩
  seen := []
  enum := false
  absent := false
  irqEnabled := false
  irqMask := false
  irqPend := false
  timerArmed := false
  timerDeadline := 0

/-- The machine right after power-on with given parameters (10_state R53, 70_reset R280, R281). -/
def State.powerOn (p : Params) : State where
  params := p
  drv := Driver.powerOn
  chip := ⟨false, [], []⟩
  env := ⟨0, none, [], [], [], [], [], 0⟩
  ctx := .poll
  poll := .idle
  result := none
  program := []
  hist := []

/-- The machine right after reset (10_state R53; parameters: log 4; values the spec leaves unset: log 6). -/
def State.reset : State := State.powerOn Config.params

/-- POLL is inside INITIALIZE (42_initialize R170). -/
def PollPos.inInit : PollPos → Bool
  | .initReset => true
  | .initStatus => true
  | .initWrites _ => true
  | .modeWrite => true
  | .modeClock => true
  | .modeRead _ => true
  | .modeTime _ => true
  | .initState => true
  | .initRegister => true
  | _ => false

/-- `cfg` (10_state R21): set from INITIALIZE's assignment on, and unset where no INITIALIZE runs and none has succeeded, so after a
failed one as at power-on (R53), although its assignment is not undone (60_exceptions R240; log 17). -/
def State.cfg (s : State) : Option Cfg := if s.drv.mode = .ready ∨ s.poll.inInit = true then s.drv.given else none

/-! ### The named updates -/

/-- POLL's next micro-step. -/
def State.goto (s : State) (p : PollPos) : State := { s with poll := p }
/-- An operation of POLL returns: its value, and POLL is idle. -/
def State.ret (s : State) (v : Ret) : State := { s with poll := .idle, result := some v }
/-- A value returned outside POLL's operations. -/
def State.answer (s : State) (v : Ret) : State := { s with result := some v }
/-- An operation of several micro-steps begins: nothing returned yet. -/
def State.start (s : State) (p : PollPos) : State := { s with poll := p, result := none }
/-- One more event in the history. -/
def State.record (s : State) (e : Event) : State := { s with hist := s.hist ++ [e] }
/-- The environment changes. -/
def State.setEnv (s : State) (e : Env) : State := { s with env := e }
/-- The controller image changes. -/
def State.setChip (s : State) (c : ChipImage) : State := { s with chip := c }
/-- The block's own state changes. -/
def State.setDrv (s : State) (d : Driver) : State := { s with drv := d }
/-- Another context's code goes on. -/
def State.enter (s : State) (c : Context) : State := { s with ctx := c }
/-- The issue stream changes. -/
def State.setProgram (s : State) (bs : List Byte) : State := { s with program := bs }

end Sys2Proof.Machine
end

