-- ==== Sys2Proof/Machine/Operands.lean ====
section
/-! DEFINITION. The operand forms: record accessors (10_state R48), the transmit record (R49), identifier fields, id pairs and
bus addresses (30_encoding R97, R106), the pseudo-frames (R110), record to text (44_receive_path R212). -/

namespace Sys2Proof.Machine

/-! ### Receive records (10_state R48) -/

/-- Byte `i` of a record. -/
def byteAt (r : List Byte) (i : Nat) : Byte := r.getD i 0

/-- The value of a profile's byte function (10_state R40; log 3). -/
def evalByte (r : List Byte) : ByteFn → Byte
  | .lit v => v
  | .input i => byteAt r i
  | .and x y => evalByte r x &&& evalByte r y
  | .or x y => evalByte r x ||| evalByte r y
  | .xor x y => evalByte r x ^^^ evalByte r y
  | .ite c x y => if evalByte r c = 0 then evalByte r y else evalByte r x

/-- `rec_ext(r)`. -/
def recExt (c : Chip) (r : List Byte) : Bool := evalByte r c.rx.ext != 0

/-- `rec_rtr(r)`. -/
def recRtr (c : Chip) (r : List Byte) : Bool := evalByte r c.rx.rtr != 0

/-- `rec_len(r)`: at most 8 (decision D35). -/
def recLen (c : Chip) (r : List Byte) : Nat := min (evalByte r c.rx.len).toNat 8

/-- `rec_id(r)`: the flag bits are masked off under every profile. -/
def recId (c : Chip) (r : List Byte) : IdPair := ⟨evalByte r c.rx.hi, evalByte r c.rx.lo &&& 0xE0⟩

/-- `rec_data(r)`: `rec_len(r)` bytes. -/
def recData (c : Chip) (r : List Byte) : List Byte :=
  (List.range (recLen c r)).map fun i => evalByte r (c.rx.data.getD i (.lit 0))

/-- `payloadLen(r)` (44_receive_path R207). -/
def payloadLen (c : Chip) (r : List Byte) : Nat := if recRtr c r then 0 else recLen c r

/-- `idMatch(r)` against an own identifier (44_receive_path R207). -/
def idMatch (c : Chip) (own : IdPair) (r : List Byte) : Bool := !recExt c r && recId c r == own

/-- `recToWire(b)` (44_receive_path R212). -/
def recToWire (c : Chip) (b : List Byte) : WireString :=
  frameText (recExt c b)
    (if recExt c b then [byteAt b 0, byteAt b 1, byteAt b 2, byteAt b 3] else [byteAt b 0, byteAt b 1 &&& 0xE0])
    (recRtr c b) (if recRtr c b then [] else recData c b)

/-! ### Transmit records (10_state R49) -/

/-- The arguments of `mk_txrec` as the bytes a profile's transmit layout is a function of: a standard field's reserved bits are
cleared before (30_encoding R98; log 3). -/
def txInputs (ext : Bool) (idfield : BitVec 32) (rtr : Bool) (data : List Byte) : List Byte :=
  (if ext then 1 else 0) :: (if rtr then 1 else 0)
    :: (bytes4 (if ext then idfield else idfield &&& 0xFFE0) ++ BitVec.ofNat 8 data.length :: data)

/-- `mk_txrec(ext, idfield, rtr, data)`: four identifier bytes, the length byte, the data. -/
def mkTxRec (c : Chip) (ext : Bool) (idfield : BitVec 32) (rtr : Bool) (data : List Byte) : List Byte :=
  [c.tx.id0, c.tx.id1, c.tx.id2, c.tx.id3, c.tx.len].map (evalByte (txInputs ext idfield rtr data)) ++ data

/-- The priority level of an attempt (43_send R181 step S6, R184). -/
def Attempt.prio : Attempt → Prio
  | .first => .high
  | .second => .retry

/-! ### Headers, id pairs, addresses (30_encoding R97, R106; 40_codec R131) -/

/-- `packHeader` (40_codec R131). -/
def packHeader (majpri minpri addr : Nat) : Nat := majpri <<< 9 ||| minpri <<< 7 ||| addr

/-- `unpackHeader` (40_codec R131). -/
def unpackHeader (h : Nat) : Nat × Nat × Nat := (h / 512 % 4, h / 128 % 4, h % 128)

/-- The standard identifier field of an id pair, `F = (hi << 8) | lo` (30_encoding R106), as 32 bits. -/
def idField (p : IdPair) : BitVec 32 := (p.hi ++ p.lo).setWidth 32

/-- The id pair of a standard identifier field (30_encoding R106). -/
def idPairOf (f : BitVec 16) : IdPair := ⟨f.extractLsb' 8 8, f.extractLsb' 0 8 &&& 0xE0⟩

/-- The bus address of an id pair (10_state R27, 30_encoding R106). -/
def addrOf (p : IdPair) : Nat := (p.hi.toNat % 16) * 8 + p.lo.toNat / 32

/-- `idOf(a)`: the id pair of bus address `a` at priority zero (30_encoding R106). -/
def idOf (a : Nat) : IdPair := ⟨BitVec.ofNat 8 (a / 8), BitVec.ofNat 8 (a % 8 * 32)⟩

/-- The scan space of RUN_ENUMERATION in its order (45_enumeration R224). -/
def candidates : List IdPair :=
  (List.range' Config.enumFirst (Config.enumLast + 1 - Config.enumFirst)).map idOf

/-! ### Pseudo-frames (30_encoding R110) -/

/-- The text of `OWN_ID(selfId)`. -/
def ownIdText (p : IdPair) : WireString := frameText false [p.hi, p.lo] false []

/-- The transmit record of `OWN_ID(selfId)`. -/
def ownIdRec (c : Chip) (p : IdPair) : List Byte := mkTxRec c false (idField p) false []

/-- The text of `COLLISION_RTR(selfId)`. -/
def collisionText (p : IdPair) : WireString := frameText false [p.hi, p.lo] true []

/-- The transmit record of `COLLISION_RTR(selfId)`. -/
def collisionRec (c : Chip) (p : IdPair) : List Byte := mkTxRec c false (idField p) true []

/-! ### The codec's functions (40_codec R130, R135) -/

/-- The text ENCODE writes; a standard `id` is the 11-bit header, shifted into the 16-bit field. -/
def encodeText (ext : Bool) (id : BitVec 32) (opcode : Byte) (payload : List Byte) : WireString :=
  frameText ext (if ext then bytes4 id else bytes2 ((id <<< Config.idShift).setWidth 16)) false (opcode :: payload)

/-- The frame DECODE makes of the parsed fields. -/
def frameOf (c : Parsed) : Frame where
  ext := c.ext
  rtr := c.rtr
  id := if c.ext then c.idfield else c.idfield >>> Config.idShift
  opcode := c.data.head?
  payload := c.data.tail

/-- DECODE's result. -/
def decodeText (w : WireString) : Except CtbError Frame :=
  match checkShape w with
  | .error e => .error e
  | .ok c => .ok (frameOf c)

/-! ### Ring arithmetic (20_memory R65) -/

/-- Advance an index modulo the capacity. -/
def advance (n i : Nat) : Nat := (i + 1) % n

/-- `count = (wr - rd) mod N`, non-negative (10_state R26). -/
def ringCount (n wr rd : Nat) : Nat := (((wr : Int) - (rd : Int)) % (n : Int)).toNat

/-- The address in ring memory of byte `i` of a slot (10_state R50). -/
def slotAddr (slot i : Nat) : Nat := slot * Config.recBytes + i

end Sys2Proof.Machine
end

