-- ==== Sys2Proof/Machine/Ops.lean ====
section
/-! DEFINITION. The shared operations: memory, the environment's answers, bus transactions, clock and timer, durable storage,
guards, error returns, and the entry into a handler. -/

namespace Sys2Proof.Machine

/-- The three outcomes of a step of this machine. -/
abbrev Out := Host.Outcome State Fault Refusal

/-! ### Memory -/

/-- The byte an address holds, if one has been written. -/
def Memory.read : Memory → Nat → Option Byte
  | [], _ => none
  | (b, v) :: rest, a => if a = b then some v else Memory.read rest a

/-- Write one byte, keeping the addresses strictly rising. -/
def Memory.write : Memory → Nat → Byte → Memory
  | [], a, v => [(a, v)]
  | (b, u) :: rest, a, v =>
    if a < b then (a, v) :: (b, u) :: rest
    else if a = b then (a, v) :: rest
    else (b, u) :: Memory.write rest a v

/-- Write bytes in index order from an address on (20_memory R61). -/
def Memory.writeAll (m : Memory) (a : Nat) : List Byte → Memory
  | [] => m
  | v :: vs => Memory.writeAll (Memory.write m a v) (a + 1) vs

/-! ### The environment's answers (log 1) -/

/-- The next byte the controller answers (41_bus_transactions R150). -/
def Env.takeByte (e : Env) : Byte × Env :=
  match e.answers with
  | b :: bs => (b, { e with answers := bs })
  | [] => (Config.freeByte e.drawn, { e with drawn := e.drawn + 1 })

/-- The next `k` bytes the controller answers, in arrival order. -/
def Env.takeBytes : Nat → Env → List Byte × Env
  | 0, e => ([], e)
  | k + 1, e => (e.takeByte.1 :: (Env.takeBytes k e.takeByte.2).1, (Env.takeBytes k e.takeByte.2).2)

/-- A read of the clock: some milliseconds, possibly none, have passed (60_exceptions R262). -/
def Env.takeTick (e : Env) : Nat × Env :=
  match e.ticks with
  | d :: ds => (e.clock + d, { e with ticks := ds, clock := e.clock + d })
  | [] => (e.clock + Config.freeTick e.drawn,
      { e with clock := e.clock + Config.freeTick e.drawn, drawn := e.drawn + 1 })

/-- Whether an access of durable storage to its medium succeeds (45_enumeration R228, 42_initialize R174). -/
def Env.takeStore (e : Env) : Bool × Env :=
  match e.stores with
  | b :: bs => (b, { e with stores := bs })
  | [] => (Config.freeStore e.drawn, { e with drawn := e.drawn + 1 })

/-- Whose move is next. -/
def Env.takeTurn (e : Env) : Turn × Env :=
  match e.turns with
  | t :: ts => (t, { e with turns := ts })
  | [] => (Config.freeTurn e.drawn, { e with drawn := e.drawn + 1 })

/-- `now()` (60_exceptions R262). -/
def State.now (s : State) : Nat × State := (s.env.takeTick.1, s.setEnv s.env.takeTick.2)

/-- The next turn, taken from the script. -/
def State.takeTurn (s : State) : Turn × State := (s.env.takeTurn.1, s.setEnv s.env.takeTurn.2)

/-! ### Bus transactions (41_bus_transactions R150 to R158) -/

/-- `Bus.cs(level)`. -/
def State.busCs (s : State) (asserted : Bool) : State := s.setChip { s.chip with cs := asserted }

/-- `Bus.write` (`n = 0`) or `Bus.writeThenRead`: the `n` bytes read are the environment's answer. -/
def State.busTransfer (s : State) (n : Nat) : List Byte × State :=
  ((Env.takeBytes n s.env).1, s.setEnv (Env.takeBytes n s.env).2)

/-- One transaction: chip-select asserted, one transfer, chip-select deasserted, one event (R151). -/
def State.transaction (s : State) (written : List Byte) (n : Nat) : List Byte × State :=
  let t := (s.busCs true).busTransfer n
  (t.1, (t.2.busCs false).record (.tx written t.1))

/-- REG_READ (R152). -/
def State.regRead (s : State) (a : Byte) : Byte × State :=
  let t := s.transaction [s.params.chip.cmdRead, a] 1
  (t.1.headD 0, t.2)

/-- REG_WRITE (R153): the register holds the byte by the end of the transaction (20_memory R68). -/
def State.regWrite (s : State) (a v : Byte) : State :=
  let t := (s.transaction [s.params.chip.cmdWrite, a, v] 0).2
  t.setChip { t.chip with regs := Memory.write t.chip.regs a.toNat v }

/-- CHIP_RESET (R154): nothing the block wrote is known to hold any more (70_reset R282). -/
def State.chipReset (s : State) : State :=
  let t := (s.transaction [s.params.chip.cmdReset] 0).2
  t.setChip { t.chip with regs := [], txBuf := [] }

/-- RX_READ (R155). -/
def State.rxRead (s : State) : List Byte × State := s.transaction [s.params.chip.cmdRxRead] Config.recBytes

/-- TX_LOAD (R156): only the record's bytes are sent, the buffer's others keep what they held. -/
def State.txLoad (s : State) (t : List Byte) : State :=
  let u := (s.transaction (s.params.chip.cmdTxLoad :: t) 0).2
  u.setChip { u.chip with txBuf := Memory.writeAll u.chip.txBuf 0 t }

/-- TX_REQUEST (R157). -/
def State.txRequest (s : State) (p : Prio) : State :=
  s.regWrite s.params.chip.regTxctrl (s.params.chip.txctrlReq p)

/-- TX_ABORT (R158). -/
def State.txAbort (s : State) : State := s.regWrite s.params.chip.regTxctrl s.params.chip.txctrlAbort

/-- TX_FIRE, the interrupt-context transmit: nothing while the controller is absent, else load and request (43_send R192). -/
def State.txFire (s : State) (t : List Byte) : State :=
  if s.drv.absent then s else (s.txLoad t).txRequest .high

/-! ### Timer and durable storage -/

/-- `TimerArm(d)`: an armed timer's deadline is replaced (60_exceptions R263). -/
def State.timerArm (s : State) (d : Nat) : State :=
  s.now.2.setDrv { s.drv with timerArmed := true, timerDeadline := s.now.1 + d }

/-- `PersistSelfId(p)`: an output event; the pair is with durable storage, and the block hears no more of it (45_enumeration
R228). -/
def State.persistSelfId (s : State) (p : IdPair) : State :=
  (s.setEnv { s.env with handed := s.env.handed ++ [p] }).record (.persist p)

/-- ENV: durable storage settles the oldest pair handed to it, which it then holds or has lost; nobody is told. Whether and when
is the environment's (20_memory R80; log 18). -/
def State.settleStore (s : State) : State :=
  match s.env.handed with
  | [] => s
  | p :: rest =>
    s.setEnv { s.env.takeStore.2 with handed := rest, storage := if s.env.takeStore.1 then some p else s.env.storage }

/-- INITIALIZE's one read of durable storage; a failed read counts as "holds none" (42_initialize R174). -/
def State.loadSelfId (s : State) : Option IdPair × State :=
  (if s.env.takeStore.1 then s.env.storage else none, s.setEnv s.env.takeStore.2)

/-! ### Errors: `raise` is `return Err` (60_exceptions R240, R241) -/

/-- SEND returns `Err(e)`. -/
def State.raiseSend (s : State) (e : CtbError) : State := s.ret (.sent (.error e))

/-- INITIALIZE returns `Err(ControllerNotPresent)`: `mode` is still `Uninit` and steps 7 and 8 have not run (42_initialize R171).
What was done stays done (60_exceptions R240), and with no INITIALIZE running `State.cfg` is unset again (10_state R53; log 17). -/
def State.raiseInit (s : State) : State := s.ret (.inited (.error .controllerNotPresent))

/-! ### Entering and leaving a handler (60_exceptions R252, R253, R255, R256) -/

/-- IRQ_HANDLER is deliverable (R252). -/
def State.deliverable (s : State) : Bool :=
  s.drv.mode == .ready && s.drv.irqEnabled && s.drv.irqPend && !s.drv.irqMask

/-- Entry: the pending bit is cleared, nothing else is saved or changed (R253, R255). -/
def State.enterIrq (s : State) : State := s.setDrv { s.drv with irqPend := false }

/-- The return from a handler restores nothing; POLL's code goes on (R256). -/
def State.leave (s : State) : State := s.enter .poll

/-- The TIMER step is enabled at a reading of the clock (R264; a driver must exist, 10_state R22). -/
def State.timerDue (s : State) (t : Nat) : Bool :=
  s.drv.mode == .ready && s.drv.timerArmed && decide (s.drv.timerDeadline ≤ t)

/-! ### Guards: which code calls which operation (60_exceptions R260) -/

/-- A call that only one context's code makes. -/
def State.whenIn (s : State) (c : Context) (k : Out) : Out := if s.ctx = c then k else .refused .wrongContext

/-- POLL's operations: POLL is one thread, and calls one only when no other is in progress (00_scope R11). -/
def State.whenIdle (s : State) (k : Out) : Out :=
  s.whenIn .poll (if s.poll = .idle then k else .refused .pollBusy)

/-- An operation of the driver needs a driver (10_state R22). -/
def State.whenReady (s : State) (k : Out) : Out := if s.drv.mode = .ready then k else .refused .notReady

/-- The transaction that POLL's code, inside INITIALIZE or SEND, makes next (42_initialize R170, 43_send R181). MODE_SET,
TX_REQUEST and TX_ABORT are register writes (41_bus_transactions R157 to R159). -/
def State.pollCalls (s : State) (i : Instr) : Bool :=
  match s.poll with
  | .initReset => i == .chipReset
  | .initStatus => i == .regRead s.params.chip.regStatus
  | .initWrites ((a, v) :: _) => i == .regWrite a v
  | .modeWrite => i == .modeSet || i == .regWrite s.params.chip.regMode s.params.chip.modeNormal
  | .modeRead _ => i == .regRead s.params.chip.regStatus
  | .sendLoad t => i == .txLoad t
  | .sendRequest a => i == .txRequest a.prio || i == .regWrite s.params.chip.regTxctrl (s.params.chip.txctrlReq a.prio)
  | .sendReadback => i == .regRead s.params.chip.regTxctrl
  | .sendPoll _ _ => i == .regRead s.params.chip.regTxctrl
  | .sendAbort _ => i == .txAbort || i == .regWrite s.params.chip.regTxctrl s.params.chip.txctrlAbort
  | _ => false

/-- The transactions that the handler's code makes (44_receive_path R200): the record's read, and TX_FIRE's load and request, which
an absent controller gets no more (43_send R192). -/
def State.irqCalls (s : State) (i : Instr) : Bool :=
  s.drv.mode == .ready &&
    (i == .rxRead || !s.drv.absent &&
      (i == .txRequest .high || i == .regWrite s.params.chip.regTxctrl s.params.chip.txctrlReqHigh
        || match i with
          | .txLoad t => txRecordOk t
          | _ => false))

/-- The code whose turn it is calls this transaction (60_exceptions R260, 41_bus_transactions R161). -/
def State.calls (s : State) (i : Instr) : Bool :=
  match s.ctx with
  | .poll => s.pollCalls i
  | .irq => s.irqCalls i
  | .timer => false

/-- A transaction is made only where the block's own code calls it. -/
def State.whenCalled (s : State) (i : Instr) (k : Out) : Out := if s.calls i then k else .refused .wrongContext

end Sys2Proof.Machine
end

