-- ==== Sys2Proof/Machine/Flags.lean ====
section
/-! DEFINITION. The block's flags: what sets and clears each (10_state R36) and the environment's edges and restart. -/

namespace Sys2Proof.Machine

/-- Set `irqMask` to a value: SEND's S4 and its exits (43_send R189). -/
def State.setMask (s : State) (b : Bool) : State := s.setDrv { s.drv with irqMask := b }

/-- Latch `absent`, with the one log event at its going from 0 to 1 (10_state R30, 60_exceptions R246). -/
def State.latchAbsent (s : State) : State :=
  let t := s.setDrv { s.drv with absent := true }
  if s.drv.absent then t else t.record (.log .controllerNotPresent)

/-- Set `enum`: a collision (44_receive_path R206). -/
def State.setEnum (s : State) : State := s.setDrv { s.drv with enum := true }

/-- A falling edge on the interrupt line (60_exceptions R251). -/
def State.fallingEdge (s : State) : State :=
  if s.drv.irqEnabled && (!s.drv.irqMask || s.params.maskedEdge == .latch)
  then s.setDrv { s.drv with irqPend := true } else s

/-- A restart of the program: power-on again; durable storage with what was handed to it, the clock and the chip's registers are
not the block's and stay, chip-select is deasserted (70_reset R280, R283; 41_bus_transactions R151; log 11). -/
def State.restart (s : State) : State :=
  { s with
    drv := Driver.powerOn
    chip := { s.chip with cs := false }
    ctx := .poll
    poll := .idle
    result := none
    hist := s.hist ++ [.restart] }

end Sys2Proof.Machine
end

