-- ==== Sys2Proof/Machine/Codec.lean ====
section
/-! DEFINITION. The frame codec's operations (40_codec), the wire formats (30_encoding R91), the pseudo-frames (R110) and the
CBUS opcode bytes (R113). None changes the block's own state (40_codec R140). -/

namespace Sys2Proof.Machine

/-- ENCODE (40_codec R130): the wire string; arguments that break a `require` are refused. -/
def execEncode (ext : Bool) (id : BitVec 32) (opcode : Byte) (payload : List Byte) (s : State) : Out :=
  s.whenIdle <|
    if encodeArgsOk ext id payload then .next (s.ret (.wire (encodeText ext id opcode payload)))
    else .refused .encodeArguments

/-- DECODE (40_codec R135). -/
def execDecode (w : WireString) (s : State) : Out := s.whenIdle (.next (s.ret (.decoded (decodeText w))))

/-- A wire format's text and the shape check's answer for it (30_encoding R91, R103). -/
def answerFrame (text : WireString) (s : State) : Out := s.whenIdle (.next (s.ret (.frame text (checkShape text))))

/-- WIRE_SN (30_encoding R91). -/
def execWireSN (f : BitVec 16) (data : List Byte) (s : State) : Out :=
  answerFrame (frameText false (bytes2 f) false data) s

/-- WIRE_SR (30_encoding R91). -/
def execWireSR (f : BitVec 16) (data : List Byte) (s : State) : Out :=
  answerFrame (frameText false (bytes2 f) true data) s

/-- WIRE_XN (30_encoding R91). -/
def execWireXN (x : BitVec 32) (data : List Byte) (s : State) : Out :=
  answerFrame (frameText true (bytes4 x) false data) s

/-- WIRE_XR (30_encoding R91). -/
def execWireXR (x : BitVec 32) (data : List Byte) (s : State) : Out :=
  answerFrame (frameText true (bytes4 x) true data) s

/-- OWN_ID, built by the handler's code (30_encoding R110, 44_receive_path R202): the text and the transmit record of `selfId`. -/
def execOwnId (s : State) : Out :=
  s.whenIn .irq <| s.whenReady (.next (s.answer (.pseudo (ownIdText s.drv.selfId) (ownIdRec s.params.chip s.drv.selfId))))

/-- COLLISION_RTR, built by the handler's code (30_encoding R110, 44_receive_path R206): the text and the transmit record of
`selfId`. -/
def execCollisionRtr (s : State) : Out :=
  s.whenIn .irq <| s.whenReady (.next (s.answer (.pseudo (collisionText s.drv.selfId) (collisionRec s.params.chip s.drv.selfId))))

/-- A CBUS opcode byte as data byte 0 with its payload: an opaque data field and its hex text (30_encoding R96, R100, R113). -/
def answerOpcode (opcode : Byte) (payload : List Byte) (s : State) : Out :=
  s.whenIdle <|
    if payloadOk payload then .next (s.ret (.data (opcode :: payload) (hexBytes (opcode :: payload))))
    else .refused .badPayload

/-- OPC_0D (30_encoding R113). -/
def execOpc0D (payload : List Byte) (s : State) : Out := answerOpcode 0x0D payload s

/-- OPC_10 (30_encoding R113). -/
def execOpc10 (payload : List Byte) (s : State) : Out := answerOpcode 0x10 payload s

/-- OPC_42 (30_encoding R113). -/
def execOpc42 (payload : List Byte) (s : State) : Out := answerOpcode 0x42 payload s

/-- OPC_50 (30_encoding R113). -/
def execOpc50 (payload : List Byte) (s : State) : Out := answerOpcode 0x50 payload s

/-- OPC_52 (30_encoding R113). -/
def execOpc52 (payload : List Byte) (s : State) : Out := answerOpcode 0x52 payload s

/-- OPC_53 (30_encoding R113). -/
def execOpc53 (payload : List Byte) (s : State) : Out := answerOpcode 0x53 payload s

/-- OPC_54 (30_encoding R113). -/
def execOpc54 (payload : List Byte) (s : State) : Out := answerOpcode 0x54 payload s

/-- OPC_57 (30_encoding R113). -/
def execOpc57 (payload : List Byte) (s : State) : Out := answerOpcode 0x57 payload s

/-- OPC_58 (30_encoding R113). -/
def execOpc58 (payload : List Byte) (s : State) : Out := answerOpcode 0x58 payload s

/-- OPC_71 (30_encoding R113). -/
def execOpc71 (payload : List Byte) (s : State) : Out := answerOpcode 0x71 payload s

/-- OPC_73 (30_encoding R113). -/
def execOpc73 (payload : List Byte) (s : State) : Out := answerOpcode 0x73 payload s

/-- OPC_90 (30_encoding R113). -/
def execOpc90 (payload : List Byte) (s : State) : Out := answerOpcode 0x90 payload s

/-- OPC_91 (30_encoding R113). -/
def execOpc91 (payload : List Byte) (s : State) : Out := answerOpcode 0x91 payload s

/-- OPC_95 (30_encoding R113). -/
def execOpc95 (payload : List Byte) (s : State) : Out := answerOpcode 0x95 payload s

/-- OPC_96 (30_encoding R113). -/
def execOpc96 (payload : List Byte) (s : State) : Out := answerOpcode 0x96 payload s

/-- OPC_98 (30_encoding R113). -/
def execOpc98 (payload : List Byte) (s : State) : Out := answerOpcode 0x98 payload s

/-- OPC_99 (30_encoding R113). -/
def execOpc99 (payload : List Byte) (s : State) : Out := answerOpcode 0x99 payload s

/-- OPC_9C (30_encoding R113). -/
def execOpc9C (payload : List Byte) (s : State) : Out := answerOpcode 0x9C payload s

/-- OPC_D2 (30_encoding R113). -/
def execOpcD2 (payload : List Byte) (s : State) : Out := answerOpcode 0xD2 payload s

end Sys2Proof.Machine
end

