-- ==== Sys2Proof/Machine/Enumeration.lean ====
section
/-! DEFINITION. RUN_ENUMERATION (45_enumeration R222) and the timer's firing (60_exceptions R264). -/

namespace Sys2Proof.Machine

/-- The first candidate that is not among the ids seen (R224). -/
def firstFree (seen : List IdPair) : Option IdPair := candidates.find? fun p => !seen.contains p

/-- E3: adopt the found identifier and persist it, or change nothing (R225, R226). -/
def State.adopt (s : State) : Option IdPair → State
  | none => s
  | some p => (s.setDrv { s.drv with selfId := p }).persistSelfId p

/-- RUN_ENUMERATION's run, E1 to E4. -/
def enumerationBody (s : State) : State :=
  let t := (s.setDrv { s.drv with enum := false }).adopt (firstFree s.drv.seen)
  t.setDrv { t.drv with seen := [] }

/-- The timer fires: it is disarmed, then the callback runs and returns, in one atomic step (60_exceptions R264, R256). -/
def timerFire (s : State) : State := (enumerationBody (s.setDrv { s.drv with timerArmed := false })).leave

/-- RUN_ENUMERATION, in the timer's context: run where the timer is due at a reading of the clock (R222, 60_exceptions R260,
R264). -/
def execRunEnumeration (s : State) : Out :=
  s.whenIn .timer <| s.whenReady (if s.now.2.timerDue s.now.1 then .next (timerFire s.now.2) else .refused .timerNotDue)

end Sys2Proof.Machine
end

