-- ==== Sys2Proof/Machine/Bus.lean ====
section
/-! DEFINITION. The bus transactions (41_bus_transactions). Each row is one transaction, made where the block's own code calls it
(60_exceptions R260, R161); what is done with the answer is the calling operation's. MODE_SET is a loop of micro-steps (R159). -/

namespace Sys2Proof.Machine

/-- REG_READ (R152). -/
def execRegRead (a : Byte) (s : State) : Out :=
  s.whenCalled (.regRead a) (.next ((s.regRead a).2.answer (.byte (s.regRead a).1)))

/-- REG_WRITE (R153). -/
def execRegWrite (a v : Byte) (s : State) : Out := s.whenCalled (.regWrite a v) (.next ((s.regWrite a v).answer .done))

/-- CHIP_RESET (R154). -/
def execChipReset (s : State) : Out := s.whenCalled .chipReset (.next (s.chipReset.answer .done))

/-- RX_READ (R155). -/
def execRxRead (s : State) : Out := s.whenCalled .rxRead (.next (s.rxRead.2.answer (.record s.rxRead.1)))

/-- TX_LOAD (R156). -/
def execTxLoad (t : List Byte) (s : State) : Out := s.whenCalled (.txLoad t) (.next ((s.txLoad t).answer .done))

/-- TX_REQUEST (R157). -/
def execTxRequest (p : Prio) (s : State) : Out := s.whenCalled (.txRequest p) (.next ((s.txRequest p).answer .done))

/-- TX_ABORT (R158). -/
def execTxAbort (s : State) : Out := s.whenCalled .txAbort (.next (s.txAbort.answer .done))

/-- MODE_SET's register write (R159). -/
def modeWriteStep (s : State) : State :=
  (s.regWrite s.params.chip.regMode s.params.chip.modeNormal).goto .modeClock

/-- MODE_SET, called at INITIALIZE's step 6 (R159): its register write; the clock reading and the polls follow as micro-steps, and
its `Ok` and `Timeout` are where INITIALIZE goes on from it. -/
def execModeSet (s : State) : Out := s.whenCalled .modeSet (.next (modeWriteStep s))

/-- `t0 <- now()`. -/
def modeClockStep (s : State) : State := s.now.2.goto (.modeRead s.now.1)

/-- One poll of the status register: the expected bits end MODE_SET with `Ok`. -/
def modeReadStep (t0 : Nat) (s : State) : State :=
  let r := s.regRead s.params.chip.regStatus
  r.2.goto (if r.1 &&& s.params.chip.modeStatMask = s.params.chip.modeStatNormal then .initState else .modeTime t0)

/-- The time test: after `T_MODE_MS` MODE_SET ends with `Timeout`, which INITIALIZE turns into its error (R159, R170). -/
def modeTimeStep (t0 : Nat) (s : State) : State :=
  if s.now.1 - t0 ≥ s.params.tModeMs then s.now.2.raiseInit else s.now.2.goto (.modeRead t0)

end Sys2Proof.Machine
end

