-- ==== Sys2Proof/Machine/Init.lean ====
section
/-! DEFINITION. INITIALIZE (42_initialize R170), its eight steps as micro-steps. -/

namespace Sys2Proof.Machine

/-- INITIALIZE (R170): the two `require` lines (R172), then `cfg`; the eight steps follow as micro-steps. -/
def execInit (busHandle chipSelect interruptLine : BitVec 32) (oscillatorHz : Nat) (s : State) : Out :=
  s.whenIdle <|
    if s.drv.mode = .ready then .refused .alreadyInitialized
    else if (s.params.oscTable.lookup oscillatorHz).isNone then .refused .unknownOscillator
    else .next ((s.setDrv { s.drv with given := some ⟨busHandle, chipSelect, interruptLine, oscillatorHz⟩ }).start .initReset)

/-- The bit-timing writes for the configured oscillator (10_state R42). -/
def State.bitTiming (s : State) : List (Byte × Byte) :=
  match s.cfg with
  | none => []
  | some c => (s.params.oscTable.lookup c.oscillatorHz).getD []

/-- The register writes of steps 3 to 5, in order. -/
def State.initWriteList (s : State) : List (Byte × Byte) :=
  s.bitTiming ++ s.params.chip.acceptAll ++ [(s.params.chip.regInte, s.params.chip.inteRx)]

/-- Step 1. -/
def initResetStep (s : State) : State := s.chipReset.goto .initStatus

/-- Step 2: the status register must read the expected value. -/
def initStatusStep (s : State) : State :=
  let r := s.regRead s.params.chip.regStatus
  if r.1 &&& s.params.chip.statusMask ≠ s.params.chip.statusExpect then r.2.raiseInit
  else r.2.goto (.initWrites s.initWriteList)

/-- Steps 3 to 5, one register write; after the last, MODE_SET (step 6). -/
def initWritesStep (ws : List (Byte × Byte)) (s : State) : State :=
  match ws with
  | [] => s.goto .modeWrite
  | (a, x) :: rest => (s.regWrite a x).goto (.initWrites rest)

/-- The driver's state after step 7, with the identifier durable storage gave, if any. -/
def Driver.initialized (d : Driver) (p : Params) (stored : Option IdPair) : Driver :=
  { d with
    slots := p.n
    ring := []
    wr := 0
    rd := 0
    seen := []
    enum := false
    absent := false
    irqMask := false
    irqPend := false
    timerArmed := false
    selfId := stored.getD p.selfIdDefault }

/-- Step 7: the ring is allocated, the software state takes its reset values, the self identifier is loaded (R174). -/
def initStateStep (s : State) : State :=
  (s.loadSelfId.2.setDrv (s.drv.initialized s.params s.loadSelfId.1)).goto .initRegister

/-- Step 8: the falling-edge callback is registered; `Ok`. -/
def initRegisterStep (s : State) : State :=
  (s.setDrv { s.drv with irqEnabled := true, mode := .ready }).ret (.inited (.ok ()))

end Sys2Proof.Machine
end

