-- ==== Sys2Proof/Machine/Receive.lean ====
section
/-! DEFINITION. The receive path (44_receive_path): IRQ_HANDLER with its cases A to D, RECEIVE as micro-steps, AVAILABLE. -/

namespace Sys2Proof.Machine

/-- Case A's condition on the record the handler has read (R202). -/
def caseA (s : State) (r : List Byte) : Bool := recRtr s.params.chip r && idMatch s.params.chip s.drv.selfId r

/-- Case B's condition (R203), given that case A did not apply. -/
def caseB (s : State) (r : List Byte) : Bool := s.drv.enum && payloadLen s.params.chip r == 0

/-- Case B: the id pair joins the ids seen, unless the list is full (R203). -/
def State.pushSeen (s : State) (p : IdPair) : State :=
  if s.drv.seen.length < s.params.seenCap then s.setDrv { s.drv with seen := s.drv.seen ++ [p] } else s

/-- Case C: all bytes of the record into slot `wr`, then the index advances; `rd` is not looked at (R204, R205). -/
def State.enqueue (s : State) (r : List Byte) : State :=
  s.setDrv { s.drv with
    ring := Memory.writeAll s.drv.ring (slotAddr s.drv.wr 0) r
    wr := advance s.params.n s.drv.wr }

/-- Case D: a collision is announced, enumeration entered, the timer armed, in this order (R206). -/
def State.collide (s : State) : State :=
  (s.txFire (collisionRec s.params.chip s.drv.selfId)).setEnum.timerArm s.params.tEnumMs

/-- The handler's run from H1 to its end, and its return (R200). -/
def irqBody (s : State) : Out :=
  let r := s.rxRead.1
  let t := s.rxRead.2
  if caseA t r then .next (t.txFire (ownIdRec t.params.chip t.drv.selfId)).leave
  else if caseB t r then .next (t.pushSeen (recId t.params.chip r)).leave
  else if t.drv.wr < t.drv.slots then
    .next (if idMatch t.params.chip t.drv.selfId r then (t.enqueue r).collide else t.enqueue r).leave
  else .fault .ringOutOfRange

/-- IRQ_HANDLER, in the interrupt context: delivered where deliverable, as one atomic micro-step (R200, 60_exceptions R252 to
R256, R260). -/
def execIrqHandler (s : State) : Out :=
  s.whenIn .irq <| s.whenReady (if s.deliverable then irqBody s.enterIrq else .refused .notDeliverable)

/-- RECEIVE, micro-step V1: one atomic read of the write index (R210). -/
def execReceive (s : State) : Out := s.whenIdle (s.whenReady (.next (s.start (.recvCompare s.drv.wr))))

/-- V2: an empty ring gives `None`. -/
def recvCompareStep (w0 : Nat) (s : State) : State :=
  if w0 = s.drv.rd then s.ret (.received none) else s.goto (.recvCopy [])

/-- V3, one byte of slot `rd` (20_memory R76); the copy is complete at `REC_BYTES` bytes. -/
def recvCopyStep (b : List Byte) (s : State) : Out :=
  if s.drv.rd < s.drv.slots then
    let a := slotAddr s.drv.rd b.length
    let b' := b ++ [(Memory.read s.drv.ring a).getD (Config.unwrittenByte a)]
    .next (s.goto (if b'.length < Config.recBytes then .recvCopy b' else .recvAdvance b'))
  else .fault .ringOutOfRange

/-- V4: one atomic write of the read index. -/
def recvAdvanceStep (b : List Byte) (s : State) : State :=
  (s.setDrv { s.drv with rd := advance s.params.n s.drv.rd }).goto (.recvReturn b)

/-- V5: the record as a wire string. -/
def recvReturnStep (b : List Byte) (s : State) : State := s.ret (.received (some (recToWire s.params.chip b)))

/-- AVAILABLE: one atomic read of `wr` (R215). -/
def execAvailable (s : State) : Out :=
  s.whenIdle (s.whenReady (.next (s.ret (.count (ringCount s.params.n s.drv.wr s.drv.rd)))))

end Sys2Proof.Machine
end

