-- ==== Sys2Proof/Machine/Send.lean ====
section
/-! DEFINITION. SEND (43_send R181) as micro-steps, and TX_FIRE (R192). -/

namespace Sys2Proof.Machine

/-- SEND, micro-step S1: the shape check, without touching hardware (R182). -/
def execSend (w : WireString) (s : State) : Out :=
  s.whenIdle <| s.whenReady <|
    match checkShape w with
    | .error e => .next (s.raiseSend e)
    | .ok c => .next (s.start (.sendAbsent c))

/-- S2: an absent controller disables further sends (R183). -/
def sendAbsentStep (c : Parsed) (s : State) : State :=
  if s.drv.absent then s.raiseSend .controllerNotPresent else s.goto (.sendRecord c)

/-- S3: the transmit record is built from the parsed fields (R184). -/
def sendRecordStep (c : Parsed) (s : State) : State :=
  s.goto (.sendMask (mkTxRec s.params.chip c.ext c.idfield c.rtr c.data))

/-- S4: the interrupt source is disabled (R189). -/
def sendMaskStep (t : List Byte) (s : State) : State := (s.setMask true).goto (.sendLoad t)

/-- S5: the frame is loaded, once. -/
def sendLoadStep (t : List Byte) (s : State) : State := (s.txLoad t).goto (.sendRequest .first)

/-- S6a: transmission is requested at the attempt's level; only the first attempt is read back (S6b). -/
def sendRequestStep (a : Attempt) (s : State) : State :=
  (s.txRequest a.prio).goto (match a with | .first => .sendReadback | .second => .sendClock .second)

/-- S6b: the readback; a mismatch latches `absent` (R185). -/
def sendReadbackStep (s : State) : State :=
  let r := s.regRead s.params.chip.regTxctrl
  if r.1 &&& s.params.chip.txctrlReadyMask ≠ s.params.chip.txctrlReadyHigh then
    (r.2.latchAbsent.setMask false).raiseSend .controllerNotPresent
  else r.2.goto (.sendClock .first)

/-- S6c: `t0 <- now()`. -/
def sendClockStep (a : Attempt) (s : State) : State := s.now.2.goto (.sendPoll a s.now.1)

/-- S6d, one poll: a clear pending flag ends SEND with `Ok` (R186). -/
def sendPollStep (a : Attempt) (t0 : Nat) (s : State) : State :=
  let r := s.regRead s.params.chip.regTxctrl
  if r.1 &&& s.params.chip.txctrlPending = 0 then (r.2.setMask false).ret (.sent (.ok ()))
  else r.2.goto (.sendTime a t0)

/-- S6d, the time test (R186). -/
def sendTimeStep (a : Attempt) (t0 : Nat) (s : State) : State :=
  s.now.2.goto (if s.now.1 - t0 ≥ Config.tTxMs then .sendAbort a else .sendPoll a t0)

/-- S6e: the attempt is aborted; after the first comes the second, after the second SEND gives up (R187, R188). -/
def sendAbortStep (a : Attempt) (s : State) : State :=
  s.txAbort.goto (match a with | .first => .sendRequest .second | .second => .sendGiveUp)

/-- S7: unmask, `TransmitTimeout`. -/
def sendGiveUpStep (s : State) : State := (s.setMask false).raiseSend .transmitTimeout

/-- TX_FIRE, called by the handler's code only (R192, 60_exceptions R260). -/
def execTxFire (t : List Byte) (s : State) : Out :=
  s.whenIn .irq (s.whenReady (if txRecordOk t then .next (s.txFire t) else .refused .badTransmitRecord))

end Sys2Proof.Machine
end

