-- ==== Sys2Proof/Machine/Poll.lean ====
section
/-! DEFINITION. POLL's next micro-step inside an operation (20_memory R71), and the next operation of the issue stream. -/

namespace Sys2Proof.Machine

/-- POLL's next micro-step; with no operation in progress there is nothing to do. -/
def pollContinue (s : State) : Out :=
  match s.poll with
  | .idle => .next s
  | .initReset => .next (initResetStep s)
  | .initStatus => .next (initStatusStep s)
  | .initWrites ws => .next (initWritesStep ws s)
  | .modeWrite => .next (modeWriteStep s)
  | .modeClock => .next (modeClockStep s)
  | .modeRead t0 => .next (modeReadStep t0 s)
  | .modeTime t0 => .next (modeTimeStep t0 s)
  | .initState => .next (initStateStep s)
  | .initRegister => .next (initRegisterStep s)
  | .sendAbsent c => .next (sendAbsentStep c s)
  | .sendRecord c => .next (sendRecordStep c s)
  | .sendMask t => .next (sendMaskStep t s)
  | .sendLoad t => .next (sendLoadStep t s)
  | .sendRequest a => .next (sendRequestStep a s)
  | .sendReadback => .next (sendReadbackStep s)
  | .sendClock a => .next (sendClockStep a s)
  | .sendPoll a t0 => .next (sendPollStep a t0 s)
  | .sendTime a t0 => .next (sendTimeStep a t0 s)
  | .sendAbort a => .next (sendAbortStep a s)
  | .sendGiveUp => .next (sendGiveUpStep s)
  | .recvCompare w0 => .next (recvCompareStep w0 s)
  | .recvCopy b => recvCopyStep b s
  | .recvAdvance b => .next (recvAdvanceStep b s)
  | .recvReturn b => .next (recvReturnStep b s)

/-- What the issue stream holds next (log 2). -/
inductive Fetched
  /-- Nothing: the caller has called nothing. -/
  | nothing
  /-- Bytes that are no operation. -/
  | bad (e : DecodeError)
  /-- An operation, and the state with its bytes taken from the stream. -/
  | issued (i : Instr) (s : State)

/-- Read the next operation of the issue stream. -/
def fetchNext (s : State) : Fetched :=
  match s.program with
  | [] => .nothing
  | bs =>
    match decode bs with
    | .error e => .bad e
    | .ok (i, rest) => .issued i (s.setProgram rest)

/-- The context in which a placed operation is called: the one whose code calls it (60_exceptions R260). DESIGN CHOICE for the
transactions that the code of two contexts makes (logs 2 and 8): TX_LOAD and TX_REQUEST at the high level, of SEND and of TX_FIRE,
are placed in the interrupt context, where they can run by themselves, and REG_WRITE, which of the handler's calls is only that
request, in POLL's. -/
def callContext : Instr → Context
  | .irqHandler => .irq
  | .txFire _ => .irq
  | .rxRead => .irq
  | .txLoad _ => .irq
  | .txRequest .high => .irq
  | .ownId => .irq
  | .collisionRtr => .irq
  | .runEnumeration => .timer
  | _ => .poll

/-- A table word placed as the next call, in the context whose code makes it, and the turn to make it (log 2). -/
def State.placeWord (s : State) (nbits w : Nat) : State :=
  { s with
    program := tableStream nbits w
    ctx := (decodeTableWord nbits w).elim .poll callContext
    poll := .idle
    env := { s.env with turns := .run :: s.env.turns } }

end Sys2Proof.Machine
end

