-- ==== Sys2Proof/Machine/Dispatch.lean ====
section
/-! DEFINITION. One arm per operation. -/

namespace Sys2Proof.Machine

def exec (i : Instr) (s : State) : Host.Outcome State Fault Refusal :=
  match i with
  | .encode ext id opcode payload => Sys2Proof.Machine.execEncode ext id opcode payload s
  | .decode w => Sys2Proof.Machine.execDecode w s
  | .initDriver busHandle chipSelect interruptLine oscillatorHz => Sys2Proof.Machine.execInit busHandle chipSelect interruptLine oscillatorHz s
  | .send w => Sys2Proof.Machine.execSend w s
  | .receive => Sys2Proof.Machine.execReceive s
  | .available => Sys2Proof.Machine.execAvailable s
  | .irqHandler => Sys2Proof.Machine.execIrqHandler s
  | .runEnumeration => Sys2Proof.Machine.execRunEnumeration s
  | .txFire t => Sys2Proof.Machine.execTxFire t s
  | .wireSN idfield data => Sys2Proof.Machine.execWireSN idfield data s
  | .wireSR idfield data => Sys2Proof.Machine.execWireSR idfield data s
  | .wireXN idfield data => Sys2Proof.Machine.execWireXN idfield data s
  | .wireXR idfield data => Sys2Proof.Machine.execWireXR idfield data s
  | .ownId => Sys2Proof.Machine.execOwnId s
  | .collisionRtr => Sys2Proof.Machine.execCollisionRtr s
  | .regRead a => Sys2Proof.Machine.execRegRead a s
  | .regWrite a v => Sys2Proof.Machine.execRegWrite a v s
  | .chipReset => Sys2Proof.Machine.execChipReset s
  | .rxRead => Sys2Proof.Machine.execRxRead s
  | .txLoad t => Sys2Proof.Machine.execTxLoad t s
  | .txRequest p => Sys2Proof.Machine.execTxRequest p s
  | .txAbort => Sys2Proof.Machine.execTxAbort s
  | .modeSet => Sys2Proof.Machine.execModeSet s
  | .opc0D payload => Sys2Proof.Machine.execOpc0D payload s
  | .opc10 payload => Sys2Proof.Machine.execOpc10 payload s
  | .opc42 payload => Sys2Proof.Machine.execOpc42 payload s
  | .opc50 payload => Sys2Proof.Machine.execOpc50 payload s
  | .opc52 payload => Sys2Proof.Machine.execOpc52 payload s
  | .opc53 payload => Sys2Proof.Machine.execOpc53 payload s
  | .opc54 payload => Sys2Proof.Machine.execOpc54 payload s
  | .opc57 payload => Sys2Proof.Machine.execOpc57 payload s
  | .opc58 payload => Sys2Proof.Machine.execOpc58 payload s
  | .opc71 payload => Sys2Proof.Machine.execOpc71 payload s
  | .opc73 payload => Sys2Proof.Machine.execOpc73 payload s
  | .opc90 payload => Sys2Proof.Machine.execOpc90 payload s
  | .opc91 payload => Sys2Proof.Machine.execOpc91 payload s
  | .opc95 payload => Sys2Proof.Machine.execOpc95 payload s
  | .opc96 payload => Sys2Proof.Machine.execOpc96 payload s
  | .opc98 payload => Sys2Proof.Machine.execOpc98 payload s
  | .opc99 payload => Sys2Proof.Machine.execOpc99 payload s
  | .opc9C payload => Sys2Proof.Machine.execOpc9C payload s
  | .opcD2 payload => Sys2Proof.Machine.execOpcD2 payload s

end Sys2Proof.Machine
end

