-- ==== Sys2Proof/Machine/Turns.lean ====
section
/-! DEFINITION. What each agent does in its turn (20_memory R71; log 1). -/

namespace Sys2Proof.Machine

/-- The turn of the code that is running, POLL's at every boundary of a run: the next micro-step of POLL's operation in progress,
else the next call of the issue stream, else nothing. -/
def runTurn (s : State) : Out :=
  if s.ctx = .poll ∧ s.poll ≠ .idle then pollContinue s
  else
    match fetchNext s with
    | .nothing => .next s
    | .bad e => .refused (.illegalEncoding e)
    | .issued i t => exec i t

/-- IRQ's turn: the handler, in its context, where it is deliverable and none is running (60_exceptions R253), else the delivery
does not take place. -/
def irqTurn (s : State) : Out :=
  if s.ctx = .poll ∧ s.deliverable then exec .irqHandler (s.enter .irq) else .next s

/-- TIMER's turn: the callback, in its context, where the timer is due at a reading of the clock and no handler is running, else
only that reading. -/
def timerTurn (s : State) : Out :=
  if s.ctx = .poll ∧ s.drv.mode = .ready ∧ s.now.2.timerDue s.now.1 then exec .runEnumeration (s.enter .timer)
  else .next s.now.2

/-- The turn of an agent, in the state from which the turn was taken. -/
def takeMove (t : Turn) (s : State) : Out :=
  match t with
  | .run => runTurn s
  | .irq => irqTurn s
  | .timer => timerTurn s
  | .edge => .next s.fallingEdge
  | .settle => .next s.settleStore
  | .restart => .next s.restart

end Sys2Proof.Machine
end

