-- ==== Sys2Proof/Safety.lean ====
section
/-! DEFINITION. The terms claims use: what a good state is (the invariants), runs of POLL by itself and interleaved with
enqueues, and the shapes of bus histories. -/

namespace Sys2Proof.Machine

/-! ### Runs -/

/-- POLL's micro-steps alone, until its operation returns or `k` micro-steps are done. -/
def pollRun : Nat → State → Out
  | 0, s => .next s
  | k + 1, s =>
    if s.poll = .idle then .next s
    else
      match pollContinue s with
      | .next t => pollRun k t
      | .fault f => .fault f
      | .refused r => .refused r

/-- An operation issued, and POLL's micro-steps alone after it. -/
def callRun (i : Instr) (k : Nat) (s : State) : Out :=
  match exec i s with
  | .next t => pollRun k t
  | .fault f => .fault f
  | .refused r => .refused r

/-- A move of the receive path: a micro-step of POLL, or a handler run that enqueues a record (case C). -/
inductive RingMove
  | poll
  | enqueue (r : List Byte)
deriving DecidableEq, Repr

/-- The records enqueued by a sequence of moves. -/
def enqueuedBy : List RingMove → List (List Byte)
  | [] => []
  | .poll :: ms => enqueuedBy ms
  | .enqueue r :: ms => r :: enqueuedBy ms

/-- POLL's micro-steps interleaved with enqueues (20_memory R71, R76). -/
def ringRun : List RingMove → State → Out
  | [], s => .next s
  | .poll :: ms, s =>
    match pollContinue s with
    | .next t => ringRun ms t
    | .fault f => .fault f
    | .refused r => .refused r
  | .enqueue r :: ms, s => ringRun ms (s.enqueue r)

/-- `k` calls of RECEIVE, each run to its return, and what they returned. -/
def receiveMany : Nat → State → Option (List (Option WireString) × State)
  | 0, s => some ([], s)
  | k + 1, s =>
    match callRun .receive 20 s with
    | .next t =>
      match t.result, receiveMany k t with
      | some (.received w), some (ws, u) => some (w :: ws, u)
      | _, _ => none
    | .fault _ => none
    | .refused _ => none

/-! ### Positions -/

/-- POLL is between S4 and SEND's exit (43_send R189). -/
def PollPos.holdsMask : PollPos → Bool
  | .sendLoad _ => true
  | .sendRequest _ => true
  | .sendReadback => true
  | .sendClock _ => true
  | .sendPoll _ _ => true
  | .sendTime _ _ => true
  | .sendAbort _ => true
  | .sendGiveUp => true
  | _ => false

/-- POLL is inside MODE_SET, past its register write (41_bus_transactions R159). -/
def PollPos.inMode : PollPos → Bool
  | .modeClock => true
  | .modeRead _ => true
  | .modeTime _ => true
  | _ => false

/-- POLL's micro-steps alone, until MODE_SET ends or `k` micro-steps are done. -/
def modeRun : Nat → State → Out
  | 0, s => .next s
  | k + 1, s =>
    if s.poll.inMode then
      match pollContinue s with
      | .next t => modeRun k t
      | .fault f => .fault f
      | .refused r => .refused r
    else .next s

/-- MODE_SET called, and POLL's micro-steps alone until it ends. -/
def modeSetRun (k : Nat) (s : State) : Out :=
  match exec .modeSet s with
  | .next t => modeRun k t
  | .fault f => .fault f
  | .refused r => .refused r

/-! ### Invariants -/

/-- Every memory is in its canonical form. -/
def MemOk (s : State) : Prop :=
  Memory.wf s.drv.ring = true ∧ Memory.wf s.chip.regs = true ∧ Memory.wf s.chip.txBuf = true

/-- The interrupt source is masked exactly between S4 and SEND's exit (43_send R189, 60_exceptions R266). -/
def MaskOk (s : State) : Prop := s.drv.irqMask = s.poll.holdsMask

/-- The lifecycle (10_state R22, R24, R25, R31, R53; 70_reset R281): before INITIALIZE's last step no flag is set and POLL is
idle or inside INITIALIZE; on a live driver the ring is allocated, the indices are in range, the callback is registered; the
enumeration flag and the timer go together (44_receive_path R206, 45_enumeration R223). -/
structure LifeOk (s : State) : Prop where
  params : s.params.wf = true
  given : s.drv.mode = .ready ∨ s.poll.inInit = true → s.drv.given.isSome = true
  uninit : s.drv.mode = .uninit →
    (s.poll = .idle ∨ s.poll.inInit = true) ∧ s.drv.irqEnabled = false ∧ s.drv.irqPend = false
      ∧ s.drv.enum = false ∧ s.drv.absent = false ∧ s.drv.timerArmed = false
  ready : s.drv.mode = .ready → s.poll.inInit = false ∧ s.drv.irqEnabled = true
  ring : s.drv.mode = .ready ∨ s.poll = .initRegister →
    s.drv.slots = s.params.n ∧ s.drv.wr < s.params.n ∧ s.drv.rd < s.params.n
  window : s.drv.enum = s.drv.timerArmed

/-- Identifiers carry no flag bits and the ids seen respect their capacity (10_state R27, R28; 42_initialize R174). -/
structure IdOk (s : State) : Prop where
  default : s.params.selfIdDefault.clean = true
  stored : ∀ p, s.env.storage = some p → p.clean = true
  handed : ∀ p ∈ s.env.handed, p.clean = true
  seen : ∀ p ∈ s.drv.seen, p.clean = true
  cap : s.drv.seen.length ≤ s.params.seenCap
  own : s.drv.mode = .ready ∨ s.poll = .initRegister → s.drv.selfId.clean = true

/-- Every byte of a slot has been written. -/
def SlotWritten (s : State) (k : Nat) : Prop :=
  ∀ i, i < Config.recBytes → (Memory.read s.drv.ring (slotAddr k i)).isSome = true

/-- The slots up to `wr` have been written and `rd` has not passed `top`, or every slot has been written (10_state R23). -/
def SlotsBelow (s : State) (rd top : Nat) : Prop :=
  (∀ k, k < s.params.n → SlotWritten s k)
    ∨ (rd ≤ top ∧ top ≤ s.drv.wr ∧ ∀ k, k < s.drv.wr → SlotWritten s k)

/-- What keeps RECEIVE from an unwritten slot (10_state R23). -/
structure SlotsOk (s : State) : Prop where
  registering : s.poll = .initRegister → s.drv.rd = 0 ∧ s.drv.wr = 0
  below : s.drv.mode = .ready → SlotsBelow s s.drv.rd s.drv.wr
  compare : ∀ w0, s.poll = .recvCompare w0 → SlotsBelow s s.drv.rd w0
  copy : ∀ b, s.poll = .recvCopy b → SlotsBelow s (s.drv.rd + 1) s.drv.wr ∧ b.length < Config.recBytes
  advance : ∀ b, s.poll = .recvAdvance b → SlotsBelow s (s.drv.rd + 1) s.drv.wr

/-- The bytes RECEIVE's copy takes from a slot. -/
def slotBytes (s : State) (k : Nat) : List Byte :=
  (List.range Config.recBytes).map fun i =>
    (Memory.read s.drv.ring (slotAddr k i)).getD (Config.unwrittenByte (slotAddr k i))

/-- A slot holds a record, byte for byte. -/
def SlotHolds (s : State) (k : Nat) (r : List Byte) : Prop :=
  ∀ i, i < Config.recBytes → Memory.read s.drv.ring (slotAddr k i) = some (byteAt r i)

/-- Every ring byte outside a slot reads as before. -/
def RingOutside (s t : State) (k : Nat) : Prop :=
  ∀ a, ¬ (slotAddr k 0 ≤ a ∧ a < slotAddr k 0 + Config.recBytes) →
    Memory.read t.drv.ring a = Memory.read s.drv.ring a

/-! ### Histories (41_bus_transactions R151) -/

/-- A REG_READ event. -/
def readEvent (c : Chip) (a v : Byte) : Event := .tx [c.cmdRead, a] [v]

/-- A REG_WRITE event. -/
def writeEvent (c : Chip) (a v : Byte) : Event := .tx [c.cmdWrite, a, v] []

/-- A TX_LOAD event. -/
def loadEvent (c : Chip) (t : List Byte) : Event := .tx (c.cmdTxLoad :: t) []

/-- A TX_REQUEST event. -/
def requestEvent (c : Chip) (p : Prio) : Event := writeEvent c c.regTxctrl (c.txctrlReq p)

/-- A TX_ABORT event. -/
def abortEvent (c : Chip) : Event := writeEvent c c.regTxctrl c.txctrlAbort

/-- Polls of the transmit-control register that see the pending flag set. -/
def PendingPolls (c : Chip) (evs : List Event) : Prop :=
  ∀ e ∈ evs, ∃ v, e = readEvent c c.regTxctrl v ∧ v &&& c.txctrlPending ≠ 0

/-- A poll of the transmit-control register that sees the pending flag clear. -/
def ClearPoll (c : Chip) (e : Event) : Prop := ∃ v, e = readEvent c c.regTxctrl v ∧ v &&& c.txctrlPending = 0

/-- Polls of the status register that do not show the mode change. -/
def ModePolls (c : Chip) (evs : List Event) : Prop :=
  ∀ e ∈ evs, ∃ v, e = readEvent c c.regStatus v ∧ v &&& c.modeStatMask ≠ c.modeStatNormal

/-- An RX_READ event. -/
def recordEvent (c : Chip) (r : List Byte) : Event := .tx [c.cmdRxRead] r

/-- The events of a TX_FIRE: none while the controller is absent (43_send R192). -/
def fireEvents (s : State) (t : List Byte) : List Event :=
  if s.drv.absent then [] else [loadEvent s.params.chip t, requestEvent s.params.chip .high]

/-- The controller image after the handler's RX_READ and a TX_FIRE: as before while the controller is absent, else the buffer's
first bytes and the transmit-control register are written (43_send R192). -/
def firedChip (s : State) (t : List Byte) : ChipImage :=
  if s.drv.absent then { s.chip with cs := false }
  else ⟨false, Memory.write s.chip.regs s.params.chip.regTxctrl.toNat s.params.chip.txctrlReqHigh,
    Memory.writeAll s.chip.txBuf 0 t⟩

/-- The registers after a list of register writes (41_bus_transactions R153). -/
def writtenRegs (m : Memory) (ws : List (Byte × Byte)) : Memory := ws.foldl (fun m w => Memory.write m w.1.toNat w.2) m

/-- The events of the register writes of INITIALIZE's steps 3 to 5. -/
def writeEvents (c : Chip) (ws : List (Byte × Byte)) : List Event := ws.map fun w => writeEvent c w.1 w.2

/-! ### Outcomes of IRQ_HANDLER (44_receive_path R209), of the state before and the state after -/

/-- Case A: the own identifier frame is fired, nothing else of the block changes; of the environment the record is taken. -/
def HandlerA (s : State) (r : List Byte) (t : State) : Prop :=
  t.drv = { s.drv with irqPend := false }
    ∧ t.chip = firedChip s (ownIdRec s.params.chip s.drv.selfId)
    ∧ t.hist = s.hist ++ recordEvent s.params.chip r :: fireEvents s (ownIdRec s.params.chip s.drv.selfId)
    ∧ t.env = (Env.takeBytes Config.recBytes s.env).2

/-- Case B: the id pair joins the ids seen unless the list is full, nothing is transmitted. -/
def HandlerB (s : State) (r : List Byte) (t : State) : Prop :=
  t.drv = { s.drv with
      irqPend := false
      seen := if s.drv.seen.length < s.params.seenCap then s.drv.seen ++ [recId s.params.chip r] else s.drv.seen }
    ∧ t.chip = { s.chip with cs := false }
    ∧ t.hist = s.hist ++ [recordEvent s.params.chip r]
    ∧ t.env = (Env.takeBytes Config.recBytes s.env).2

/-- Case C: the record is in slot `wr`, whole, and the index has advanced; no other ring byte changes. -/
def HandlerC (s : State) (r : List Byte) (t : State) : Prop :=
  t.drv = { s.drv with irqPend := false, ring := t.drv.ring, wr := (s.drv.wr + 1) % s.params.n }
    ∧ SlotHolds t s.drv.wr r ∧ RingOutside s t s.drv.wr ∧ t.chip = { s.chip with cs := false }
    ∧ t.hist = s.hist ++ [recordEvent s.params.chip r]
    ∧ t.env = (Env.takeBytes Config.recBytes s.env).2

/-- Case C, then case D: the collision is announced, enumeration entered, the timer armed from a reading of the clock. -/
def HandlerD (s : State) (r : List Byte) (t : State) : Prop :=
  let e := (Env.takeBytes Config.recBytes s.env).2
  t.drv = { s.drv with
      irqPend := false
      ring := t.drv.ring
      wr := (s.drv.wr + 1) % s.params.n
      enum := true
      timerArmed := true
      timerDeadline := e.takeTick.1 + s.params.tEnumMs }
    ∧ t.env = e.takeTick.2 ∧ t.env.clock = e.takeTick.1 ∧ s.env.clock ≤ e.takeTick.1
    ∧ SlotHolds t s.drv.wr r ∧ RingOutside s t s.drv.wr
    ∧ t.chip = firedChip s (collisionRec s.params.chip s.drv.selfId)
    ∧ t.hist = s.hist ++ recordEvent s.params.chip r :: fireEvents s (collisionRec s.params.chip s.drv.selfId)

/-! ### The block's own transactions -/

/-- A register write the block's own operations make, the bit timing's being those of the configured oscillator
(41_bus_transactions R161). -/
def OwnWrite (s : State) (a v : Byte) : Prop :=
  (∃ c ws, s.cfg = some c ∧ s.params.oscTable.lookup c.oscillatorHz = some ws ∧ (a, v) ∈ ws)
    ∨ (a, v) ∈ s.params.chip.acceptAll
    ∨ (a = s.params.chip.regInte ∧ v = s.params.chip.inteRx) ∨ (a = s.params.chip.regMode ∧ v = s.params.chip.modeNormal)
    ∨ (a = s.params.chip.regTxctrl ∧
        (v = s.params.chip.txctrlReqHigh ∨ v = s.params.chip.txctrlReqRetry ∨ v = s.params.chip.txctrlAbort))

/-- A transaction the block's own operations make (41_bus_transactions R161): no read of a register but `REG_STATUS` and
`REG_TXCTRL`, no write but the block's own. -/
def OwnTransaction (s : State) (written : List Byte) : Prop :=
  let c := s.params.chip
  written = [c.cmdReset] ∨ written = [c.cmdRxRead] ∨ (∃ t, written = c.cmdTxLoad :: t)
    ∨ written = [c.cmdRead, c.regStatus] ∨ written = [c.cmdRead, c.regTxctrl]
    ∨ ∃ a v, written = [c.cmdWrite, a, v] ∧ OwnWrite s a v

/-- The writes INITIALIZE has still to make are the block's own. -/
def WritesOk (s : State) : Prop := ∀ ws, s.poll = .initWrites ws → ∀ a v, (a, v) ∈ ws → OwnWrite s a v

end Sys2Proof.Machine
end

