-- ==== Sys2Proof/Certificates/Slice0/Obligations.lean ====
section
/-! DEFINITION. The statements for the provers. Each docstring names the rule of the spec it formalises; what is the model's own
choice is named as such, with its log entry. -/

open Sys2Proof Sys2Proof.Machine

/-! ### Encoding and text -/

/-- Every well-formed operation's bytes in the issue stream decode to it and leave what follows (the stream is the model's own
choice, log 2; the wire texts are R91's and the opcode bytes R113's). -/
def Obligations.DecodeReadsEncodedOperation : Prop :=
  ∀ (i : Instr) (rest : List Byte), i.wf = true → Sys2Proof.decode (Sys2Proof.encode i ++ rest) = .ok (i, rest)

/-- Words written out from the spec's encodings decode to the rows they stand for (R91, R108, R113). -/
def Obligations.SpecWordsDecodeToTheirRows : Prop :=
  decodeTableWord 8 0x4 = some .receive ∧ decodeTableWord 8 0x8 = some .irqHandler
    ∧ decodeTableWord 8 0x9 = some .runEnumeration ∧ decodeTableWord 8 0x90 = some (.opc90 [])
    ∧ decodeTableWord 8 0xD2 = some (.opcD2 [])
    ∧ Sys2Proof.decode [0x3A, 0x53, 0x42, 0x30, 0x32, 0x30, 0x4E, 0x39, 0x30, 0x30, 0x41, 0x3B]
        = .ok (.wireSN 0xB020 [0x90, 0x0A], [])
    ∧ Sys2Proof.decode [0x3A, 0x58, 0x31, 0x32, 0x33, 0x34, 0x35, 0x36, 0x37, 0x38, 0x52, 0x3B]
        = .ok (.wireXR 0x12345678 [], [])

/-- R90: a string is accepted exactly when it has the grammar's form. -/
def Obligations.AcceptedExactlyByGrammar : Prop :=
  ∀ w : WireString,
    (∃ c, checkShape w = .ok c) ↔
      ∃ (m k : Byte) (ids data : WireString),
        w = 0x3A :: m :: (ids ++ k :: (data ++ [0x3B]))
          ∧ ((m = 0x53 ∧ ids.length = 4) ∨ (m = 0x58 ∧ ids.length = 8)) ∧ (k = 0x4E ∨ k = 0x52)
          ∧ (∀ x ∈ ids, isHex x = true) ∧ (∀ x ∈ data, isHex x = true)
          ∧ data.length ≤ 16 ∧ data.length % 2 = 0

/-- R103, R247: the shape check's eight checks in their order, the first failure reported, and the fields of a string that passes
all eight. -/
def Obligations.ShapeCheckReportsFirstFailure : Prop :=
  ∀ w : WireString,
    let c := fun i => w.getD i 0
    let framed := 8 ≤ w.length ∧ c 0 = 0x3A ∧ c (w.length - 1) = 0x3B
    (w.length < 8 → checkShape w = .error .frameTooShort)
    ∧ (8 ≤ w.length → (c 0 ≠ 0x3A ∨ c (w.length - 1) ≠ 0x3B) → checkShape w = .error .malformedFrame)
    ∧ (framed → c 1 ≠ 0x53 → c 1 ≠ 0x58 → checkShape w = .error .unrecognizedFrameKind)
    ∧ ∀ k, framed → (c 1 = 0x53 ∧ k = 4) ∨ (c 1 = 0x58 ∧ k = 8) →
      (w.length < k + 4 → checkShape w = .error .frameTooShort)
      ∧ (k + 4 ≤ w.length → (∃ i, 2 ≤ i ∧ i < 2 + k ∧ isHex (c i) = false) → checkShape w = .error .nonHexDigits)
      ∧ (k + 4 ≤ w.length → (∀ i, 2 ≤ i → i < 2 + k → isHex (c i) = true) →
        (c (2 + k) ≠ 0x4E → c (2 + k) ≠ 0x52 → checkShape w = .error .unrecognizedFrameKind)
        ∧ (c (2 + k) = 0x4E ∨ c (2 + k) = 0x52 →
          ((∃ i, 3 + k ≤ i ∧ i < w.length - 1 ∧ isHex (c i) = false) → checkShape w = .error .nonHexDigits)
          ∧ ((∀ i, 3 + k ≤ i → i < w.length - 1 → isHex (c i) = true) →
            ((w.length - 4 - k) % 2 = 1 ∨ 16 < w.length - 4 - k → checkShape w = .error .malformedFrame)
            ∧ ((w.length - 4 - k) % 2 = 0 → w.length - 4 - k ≤ 16 →
              checkShape w = .ok ⟨k = 8, BitVec.ofNat 32 (hexNumber ((w.drop 2).take k)), c (2 + k) = 0x52,
                unhex ((w.drop (3 + k)).take (w.length - 4 - k))⟩))))

/-- R138: decoding what ENCODE writes gives its arguments back. -/
def Obligations.CodecRoundTrip : Prop :=
  ∀ (ext : Bool) (id : BitVec 32) (opcode : Byte) (payload : List Byte),
    encodeArgsOk ext id payload = true →
      decodeText (encodeText ext id opcode payload) = .ok ⟨ext, false, id, some opcode, payload⟩

/-- R139: re-encoding the fields DECODE returns gives the string back exactly when it is a normal frame with at least one data
byte, upper-case digits and zero reserved bits; without a data byte there is no opcode to call ENCODE with. -/
def Obligations.ReencodingReproducesExactly : Prop :=
  ∀ (w : WireString) (c : Parsed), checkShape w = .ok c →
    ((∃ opcode, (frameOf c).opcode = some opcode
        ∧ encodeText (frameOf c).ext (frameOf c).id opcode (frameOf c).payload = w) ↔
      c.rtr = false ∧ c.data ≠ [] ∧ (∀ x ∈ w, ¬ (0x61 ≤ x.toNat ∧ x.toNat ≤ 0x66))
        ∧ (c.ext = false → c.idfield &&& 0x1F = 0))

/-- R98: the reserved bits of a standard identifier field are written zero by ENCODE, ignored by DECODE, cleared by SEND, and
never make a string ill-formed. That SEND clears them under every profile, before the profile's own functions, is log 3's; the
record's byte is the default layout's. -/
def Obligations.ReservedIdentifierBitsIgnored : Prop :=
  (∀ (id : BitVec 32) (opcode : Byte) (payload : List Byte), encodeArgsOk false id payload = true →
      ∃ f : BitVec 16, f &&& 0x1F = 0 ∧
        encodeText false id opcode payload = frameText false (bytes2 f) false (opcode :: payload))
    ∧ (∀ (f : BitVec 16) (rtr : Bool) (data : List Byte), data.length ≤ 8 →
        ∃ c, checkShape (frameText false (bytes2 f) rtr data) = .ok c ∧ c.idfield = f.setWidth 32
          ∧ (frameOf c).id = (f >>> 5).setWidth 32)
    ∧ (∀ (c : Chip) (f : BitVec 16) (rtr : Bool) (data : List Byte),
        mkTxRec c false (f.setWidth 32) rtr data = mkTxRec c false ((f &&& 0xFFE0).setWidth 32) rtr data
          ∧ (c.tx = Config.defaultTx →
              byteAt (mkTxRec c false (f.setWidth 32) rtr data) 1 = f.setWidth 8 &&& 0xE0))

/-- R99: an extended identifier is carried raw by ENCODE, DECODE, SEND and RECEIVE. A profile's transmit layout is a function of
the identifier's own four bytes (log 3); that the record carries them as they are, with the extended flag forced on in its second
byte, is the default layout's (10_state section 8, R49). -/
def Obligations.ExtendedIdentifierCarriedRaw : Prop :=
  (∀ (x : BitVec 32) (opcode : Byte) (payload : List Byte),
      encodeText true x opcode payload = frameText true (bytes4 x) false (opcode :: payload))
    ∧ (∀ (x : BitVec 32) (rtr : Bool) (data : List Byte), data.length ≤ 8 →
        ∃ f, decodeText (frameText true (bytes4 x) rtr data) = .ok f ∧ f.ext = true ∧ f.id = x)
    ∧ (∀ (c : Chip) (x : BitVec 32) (rtr : Bool) (data : List Byte),
        (mkTxRec c true x rtr data).take 4
            = [c.tx.id0, c.tx.id1, c.tx.id2, c.tx.id3].map (evalByte (1 :: (if rtr then 1 else 0)
                :: x.extractLsb' 24 8 :: x.extractLsb' 16 8 :: x.extractLsb' 8 8 :: x.extractLsb' 0 8
                :: BitVec.ofNat 8 data.length :: data))
          ∧ (c.tx = Config.defaultTx → (mkTxRec c true x rtr data).take 4
            = [x.extractLsb' 24 8, x.extractLsb' 16 8 ||| 0x08, x.extractLsb' 8 8, x.extractLsb' 0 8]))
    ∧ (∀ (c : Chip) (b : List Byte), recExt c b = true → 4 ≤ b.length →
        ((recToWire c b).drop 2).take 8 = hexBytes (b.take 4))

/-- R101: the identifier and data digits of an accepted string may be in either case: a string of the same hex values is
accepted with the same fields. -/
def Obligations.HexDigitCaseIgnoredOnInput : Prop :=
  ∀ (w w' : WireString) (c : Parsed), checkShape w = .ok c → w'.length = w.length →
    (∀ i, i < w.length → w'.getD i 0 = w.getD i 0
      ∨ (isHex (w'.getD i 0) = true ∧ isHex (w.getD i 0) = true ∧ hexVal (w'.getD i 0) = hexVal (w.getD i 0))) →
    checkShape w' = .ok c

/-- R131: the header's packing and unpacking are inverse to each other on their ranges. -/
def Obligations.HeaderPackingInverse : Prop :=
  (∀ majpri minpri addr : Nat, majpri < 4 → minpri < 4 → addr < 128 →
      packHeader majpri minpri addr = majpri * 512 + minpri * 128 + addr
        ∧ packHeader majpri minpri addr < 2048
        ∧ unpackHeader (packHeader majpri minpri addr) = (majpri, minpri, addr))
    ∧ (∀ h : Nat, h < 2048 →
        packHeader (unpackHeader h).1 (unpackHeader h).2.1 (unpackHeader h).2.2 = h)
    ∧ packHeader 2 3 1 = 0x581 ∧ unpackHeader 0x581 = (2, 3, 1)

/-- R106: identifier field, id pair and bus address; the priorities and the address in the pair's bits. -/
def Obligations.IdPairsAndBusAddresses : Prop :=
  (∀ f : BitVec 16, idField (idPairOf f) = (f &&& 0xFFE0).setWidth 32 ∧ (idPairOf f).clean = true
      ∧ unpackHeader (f.toNat / 32)
        = ((idPairOf f).hi.toNat / 64, (idPairOf f).hi.toNat / 16 % 4, addrOf (idPairOf f)))
    ∧ (∀ p : IdPair, p.clean = true → idPairOf ((idField p).setWidth 16) = p)
    ∧ (∀ a : Nat, a < 128 → addrOf (idOf a) = a ∧ (idOf a).clean = true ∧ (idOf a).hi.toNat < 16)
    ∧ (∀ a b : Nat, a < b → b < 128 →
        (idOf a).hi.toNat < (idOf b).hi.toNat
          ∨ ((idOf a).hi = (idOf b).hi ∧ (idOf a).lo.toNat < (idOf b).lo.toNat))
    ∧ idOf 1 = ⟨0, 32⟩ ∧ idOf 2 = ⟨0, 64⟩ ∧ idOf 3 = ⟨0, 96⟩ ∧ idOf 7 = ⟨0, 224⟩ ∧ idOf 8 = ⟨1, 0⟩
    ∧ idOf 127 = ⟨15, 224⟩

/-- R213, R212: every string RECEIVE returns is well-formed, whatever the record and the profile, and what it decodes to: the
record's kind, its identifier (a standard one's flag bits masked off, an extended one's four bytes raw) and its data, none of a
remote record; and the text itself. -/
def Obligations.RecordTextWellFormed : Prop :=
  ∀ (c : Chip) (b : List Byte),
    (∃ p, checkShape (recToWire c b) = .ok p)
      ∧ (∃ f, decodeText (recToWire c b) = .ok f ∧ f.ext = recExt c b ∧ f.rtr = recRtr c b
        ∧ (recExt c b = false →
            f.id = ((byteAt b 0).setWidth 32 <<< 8 ||| (byteAt b 1 &&& 0xE0).setWidth 32) >>> 5)
        ∧ (recExt c b = true → f.id = byteAt b 0 ++ byteAt b 1 ++ byteAt b 2 ++ byteAt b 3)
        ∧ (recRtr c b = false → f.opcode = (recData c b).head? ∧ f.payload = (recData c b).drop 1)
        ∧ (recRtr c b = true → f.opcode = none ∧ f.payload = []))
      ∧ (recExt c b = false → ((recToWire c b).drop 2).take 4 = hexBytes [byteAt b 0, byteAt b 1 &&& 0xE0])
      ∧ recToWire c b = 0x3A :: (if recExt c b then 0x58 else 0x53)
          :: (hexBytes (if recExt c b then [byteAt b 0, byteAt b 1, byteAt b 2, byteAt b 3] else [byteAt b 0, byteAt b 1 &&& 0xE0])
            ++ (if recRtr c b then 0x52 else 0x4E) :: (hexBytes (if recRtr c b then [] else recData c b) ++ [0x3B]))

/-- R48, R207: the accessors of a receive record and the two predicates on it. Under every profile a record has at most 8 data
bytes, `rec_data` has `rec_len` bytes, an id pair's flag bits are masked off, only a standard frame matches, and a remote frame has
no payload; in the default layout (R48's, from general knowledge) each accessor's bits. R49: under every profile a transmit record is
`5 + |data|` bytes, the data from the sixth on, and a standard field's reserved bits do not show in it (log 3); in the default layout
(R49's, from general knowledge) its first four bytes are the identifier's and its fifth the length with the remote flag. -/
def Obligations.RecordLayouts : Prop :=
  (∀ (c : Chip) (r : List Byte) (own : IdPair),
    recLen c r ≤ 8 ∧ (recData c r).length = recLen c r
      ∧ (recId c r).lo &&& 0xE0 = (recId c r).lo
      ∧ (idMatch c own r = true ↔ recExt c r = false ∧ recId c r = own)
      ∧ (recRtr c r = true → payloadLen c r = 0) ∧ (recRtr c r = false → payloadLen c r = recLen c r)
      ∧ (c.rx = Config.defaultRx →
        recExt c r = (byteAt r 1).getLsbD 3
          ∧ recRtr c r = (if recExt c r then (byteAt r 4).getLsbD 6 else (byteAt r 1).getLsbD 4)
          ∧ recLen c r = min ((byteAt r 4).toNat % 16) 8
          ∧ recId c r = ⟨byteAt r 0, byteAt r 1 &&& 0xE0⟩
          ∧ (r.length = 13 → recData c r = (r.drop 5).take (recLen c r))))
  ∧ ∀ (c : Chip) (ext : Bool) (x : BitVec 32) (rtr : Bool) (data : List Byte), data.length ≤ 8 →
    (mkTxRec c ext x rtr data).length = 5 + data.length
      ∧ txRecordOk (mkTxRec c ext x rtr data) = true
      ∧ (mkTxRec c ext x rtr data).drop 5 = data
      ∧ mkTxRec c false x rtr data = mkTxRec c false (x &&& 0xFFE0) rtr data
      ∧ (c.tx = Config.defaultTx →
        byteAt (mkTxRec c ext x rtr data) 4 = ((if rtr then 0x40 else 0) ||| BitVec.ofNat 8 data.length)
          ∧ (ext = false → (mkTxRec c ext x rtr data).take 4
              = [x.extractLsb' 8 8, x.extractLsb' 0 8 &&& 0xE0, 0, 0])
          ∧ (ext = true → (mkTxRec c ext x rtr data).take 4
              = [x.extractLsb' 24 8, x.extractLsb' 16 8 ||| 0x08, x.extractLsb' 8 8, x.extractLsb' 0 8]))

/-! ### The codec's operations, wire formats, opcode bytes, pseudo-frames -/

/-- R130: ENCODE returns the wire string and changes nothing else; arguments that break a `require` are refused. -/
def Obligations.EncodeReturnsWireString : Prop :=
  ∀ (ext : Bool) (id : BitVec 32) (opcode : Byte) (payload : List Byte) (s : State), s.ctx = .poll → s.poll = .idle →
    (((ext = false ∧ id.toNat ≤ 0x7FF) ∨ ext = true) ∧ payload.length ≤ 7 →
      exec (.encode ext id opcode payload) s = .next { s with
        poll := .idle
        result := some (.wire
          (0x3A :: (if ext then 0x58 else 0x53)
            :: (hexBytes (if ext then bytes4 id else bytes2 (BitVec.ofNat 16 (id.toNat * 32)))
              ++ 0x4E :: (hexBytes (opcode :: payload) ++ [0x3B])))) })
    ∧ (¬ (((ext = false ∧ id.toNat ≤ 0x7FF) ∨ ext = true) ∧ payload.length ≤ 7) →
      exec (.encode ext id opcode payload) s = .refused .encodeArguments)

/-- R135, R140: DECODE returns the shape check's error or the frame's fields, and changes nothing else. -/
def Obligations.DecodeReturnsFrame : Prop :=
  ∀ (w : WireString) (s : State), s.ctx = .poll → s.poll = .idle →
    (∀ e, checkShape w = .error e →
      exec (.decode w) s = .next { s with poll := .idle, result := some (.decoded (.error e)) })
    ∧ (∀ c, checkShape w = .ok c →
      exec (.decode w) s = .next { s with
        poll := .idle
        result := some (.decoded (.ok
          { ext := c.ext, rtr := c.rtr, id := if c.ext then c.idfield else c.idfield >>> 5,
            opcode := c.data.head?, payload := c.data.drop 1 })) })

/-- R91: each wire format's text, with 0 to 8 data bytes, is accepted by the shape check with the format's fields; nothing of the
block changes. -/
def Obligations.WireFormatsAccepted : Prop :=
  ∀ (f : BitVec 16) (x : BitVec 32) (data : List Byte) (s : State), data.length ≤ 8 → s.ctx = .poll → s.poll = .idle →
    exec (.wireSN f data) s = .next { s with
        poll := .idle
        result := some (.frame (0x3A :: 0x53 :: (hexBytes (bytes2 f) ++ 0x4E :: (hexBytes data ++ [0x3B])))
          (.ok ⟨false, f.setWidth 32, false, data⟩)) }
    ∧ exec (.wireSR f data) s = .next { s with
        poll := .idle
        result := some (.frame (0x3A :: 0x53 :: (hexBytes (bytes2 f) ++ 0x52 :: (hexBytes data ++ [0x3B])))
          (.ok ⟨false, f.setWidth 32, true, data⟩)) }
    ∧ exec (.wireXN x data) s = .next { s with
        poll := .idle
        result := some (.frame (0x3A :: 0x58 :: (hexBytes (bytes4 x) ++ 0x4E :: (hexBytes data ++ [0x3B])))
          (.ok ⟨true, x, false, data⟩)) }
    ∧ exec (.wireXR x data) s = .next { s with
        poll := .idle
        result := some (.frame (0x3A :: 0x58 :: (hexBytes (bytes4 x) ++ 0x52 :: (hexBytes data ++ [0x3B])))
          (.ok ⟨true, x, true, data⟩)) }

/-- R96, R113: each of the nineteen CBUS opcode bytes is data byte 0 of an opaque data field, with 0 to 7 payload bytes after it;
nothing of the block changes. -/
def Obligations.OpcodeBytesAreOpaqueData : Prop :=
  ∀ x ∈ ([(Instr.opc0D, 0x0D), (Instr.opc10, 0x10), (Instr.opc42, 0x42), (Instr.opc50, 0x50), (Instr.opc52, 0x52),
      (Instr.opc53, 0x53), (Instr.opc54, 0x54), (Instr.opc57, 0x57), (Instr.opc58, 0x58), (Instr.opc71, 0x71),
      (Instr.opc73, 0x73), (Instr.opc90, 0x90), (Instr.opc91, 0x91), (Instr.opc95, 0x95), (Instr.opc96, 0x96),
      (Instr.opc98, 0x98), (Instr.opc99, 0x99), (Instr.opc9C, 0x9C), (Instr.opcD2, 0xD2)]
      : List ((List Byte → Instr) × Byte)),
    ∀ (payload : List Byte) (s : State), payload.length ≤ 7 → s.ctx = .poll → s.poll = .idle →
      exec (x.1 payload) s = .next { s with
        poll := .idle
        result := some (.data (x.2 :: payload) (hexBytes (x.2 :: payload))) }

/-- R110: the two pseudo-frames, built in the interrupt context of a live driver, carry `selfId` and no data, one normal, one
remote; nothing else changes. -/
def Obligations.PseudoFramesCarrySelfId : Prop :=
  ∀ s : State, s.ctx = .irq → s.drv.mode = .ready →
    exec .ownId s = .next { s with
        result := some (.pseudo
          (0x3A :: 0x53 :: (hex2 s.drv.selfId.hi ++ hex2 s.drv.selfId.lo ++ [0x4E, 0x3B]))
          (mkTxRec s.params.chip false ((s.drv.selfId.hi ++ s.drv.selfId.lo).setWidth 32) false [])) }
    ∧ exec .collisionRtr s = .next { s with
        result := some (.pseudo
          (0x3A :: 0x53 :: (hex2 s.drv.selfId.hi ++ hex2 s.drv.selfId.lo ++ [0x52, 0x3B]))
          (mkTxRec s.params.chip false ((s.drv.selfId.hi ++ s.drv.selfId.lo).setWidth 32) true [])) }

/-! ### Bus transactions -/

/-- R260, R161: where each transaction is made, and that it is refused everywhere else: inside INITIALIZE and SEND the one that
POLL's position makes next; in the interrupt context RX_READ and, unless the controller is absent, the load and the request of
TX_FIRE; in the timer's context none. Which micro-step a position is next at is log 10's; the rows are log 8's. -/
def Obligations.TransactionsMadeOnlyWhereCalled : Prop :=
  ∀ s : State,
    let p := s.params.chip
    let only := fun (i : Instr) (called : Prop) =>
      (called → ∃ t, exec i s = .next t) ∧ (¬ called → exec i s = .refused .wrongContext)
    let handler := s.ctx = .irq ∧ s.drv.mode = .ready
    only .chipReset (s.ctx = .poll ∧ s.poll = .initReset)
    ∧ only .modeSet (s.ctx = .poll ∧ s.poll = .modeWrite)
    ∧ only .txAbort (s.ctx = .poll ∧ ∃ k, s.poll = .sendAbort k)
    ∧ only .rxRead handler
    ∧ only (.txRequest .high) (s.ctx = .poll ∧ s.poll = .sendRequest .first ∨ handler ∧ s.drv.absent = false)
    ∧ only (.txRequest .retry) (s.ctx = .poll ∧ s.poll = .sendRequest .second)
    ∧ (∀ r, only (.txLoad r) (s.ctx = .poll ∧ s.poll = .sendLoad r
        ∨ handler ∧ s.drv.absent = false ∧ 5 ≤ r.length ∧ r.length ≤ 13))
    ∧ (∀ a, only (.regRead a) (s.ctx = .poll ∧
        ((a = p.regStatus ∧ (s.poll = .initStatus ∨ ∃ t0, s.poll = .modeRead t0))
          ∨ (a = p.regTxctrl ∧ (s.poll = .sendReadback ∨ ∃ k t0, s.poll = .sendPoll k t0)))))
    ∧ ∀ a v, only (.regWrite a v)
        (s.ctx = .poll ∧ ((∃ ws, s.poll = .initWrites ((a, v) :: ws))
            ∨ (s.poll = .modeWrite ∧ a = p.regMode ∧ v = p.modeNormal)
            ∨ (s.poll = .sendRequest .first ∧ a = p.regTxctrl ∧ v = p.txctrlReqHigh)
            ∨ (s.poll = .sendRequest .second ∧ a = p.regTxctrl ∧ v = p.txctrlReqRetry)
            ∨ ((∃ k, s.poll = .sendAbort k) ∧ a = p.regTxctrl ∧ v = p.txctrlAbort))
          ∨ handler ∧ s.drv.absent = false ∧ a = p.regTxctrl ∧ v = p.txctrlReqHigh)

/-- R152, R155: the two reading transactions, where the block's code makes them: one event with the environment's answer, which is
returned; the block's own state, the registers and the transmit buffer are unchanged (that a read changes nothing the model records
of the controller is log 7's). -/
def Obligations.BusReadsReturnTheAnswer : Prop :=
  ∀ s : State,
    (∀ a : Byte, s.calls (.regRead a) = true → ∃ v t, exec (.regRead a) s = .next t ∧ t.result = some (.byte v)
      ∧ t.hist = s.hist ++ [.tx [s.params.chip.cmdRead, a] [v]]
      ∧ t.drv = s.drv ∧ t.params = s.params ∧ t.ctx = s.ctx ∧ t.poll = s.poll ∧ t.program = s.program
      ∧ t.chip = { s.chip with cs := false } ∧ t.env.clock = s.env.clock ∧ t.env.storage = s.env.storage
      ∧ t.env.handed = s.env.handed
      ∧ (∀ x xs, s.env.answers = x :: xs → v = x ∧ t.env = { s.env with answers := xs }))
    ∧ (s.calls .rxRead = true → ∃ r t, exec .rxRead s = .next t ∧ r.length = 13 ∧ t.result = some (.record r)
      ∧ t.hist = s.hist ++ [.tx [s.params.chip.cmdRxRead] r]
      ∧ t.drv = s.drv ∧ t.params = s.params ∧ t.ctx = s.ctx ∧ t.poll = s.poll ∧ t.program = s.program
      ∧ t.chip = { s.chip with cs := false } ∧ t.env.clock = s.env.clock ∧ t.env.storage = s.env.storage
      ∧ t.env.handed = s.env.handed
      ∧ (∀ x xs, s.env.answers = x ++ xs → x.length = 13 → r = x ∧ t.env = { s.env with answers := xs }))

/-- R153, R154, R156, R157, R158: the writing transactions, where the block's code makes them: the bytes written, the registers and
the transmit buffer after them (the record of the controller is log 7's); the block's own state is unchanged. -/
def Obligations.BusWritesSendTheirBytes : Prop :=
  ∀ s : State,
    (∀ a v : Byte, s.calls (.regWrite a v) = true → exec (.regWrite a v) s = .next { s with
        chip := ⟨false, Memory.write s.chip.regs a.toNat v, s.chip.txBuf⟩
        hist := s.hist ++ [.tx [s.params.chip.cmdWrite, a, v] []]
        result := some .done })
    ∧ (s.calls .chipReset = true → exec .chipReset s = .next { s with
        chip := ⟨false, [], []⟩
        hist := s.hist ++ [.tx [s.params.chip.cmdReset] []]
        result := some .done })
    ∧ (∀ t : List Byte, s.calls (.txLoad t) = true → exec (.txLoad t) s = .next { s with
        chip := ⟨false, s.chip.regs, Memory.writeAll s.chip.txBuf 0 t⟩
        hist := s.hist ++ [.tx (s.params.chip.cmdTxLoad :: t) []]
        result := some .done })
    ∧ (s.calls (.txRequest .high) = true → exec (.txRequest .high) s = .next { s with
        chip := ⟨false, Memory.write s.chip.regs s.params.chip.regTxctrl.toNat s.params.chip.txctrlReqHigh, s.chip.txBuf⟩
        hist := s.hist ++ [.tx [s.params.chip.cmdWrite, s.params.chip.regTxctrl, s.params.chip.txctrlReqHigh] []]
        result := some .done })
    ∧ (s.calls (.txRequest .retry) = true → exec (.txRequest .retry) s = .next { s with
        chip := ⟨false, Memory.write s.chip.regs s.params.chip.regTxctrl.toNat s.params.chip.txctrlReqRetry, s.chip.txBuf⟩
        hist := s.hist ++ [.tx [s.params.chip.cmdWrite, s.params.chip.regTxctrl, s.params.chip.txctrlReqRetry] []]
        result := some .done })
    ∧ (s.calls .txAbort = true → exec .txAbort s = .next { s with
        chip := ⟨false, Memory.write s.chip.regs s.params.chip.regTxctrl.toNat s.params.chip.txctrlAbort, s.chip.txBuf⟩
        hist := s.hist ++ [.tx [s.params.chip.cmdWrite, s.params.chip.regTxctrl, s.params.chip.txctrlAbort] []]
        result := some .done })

/-- R153, R156, R157, R158: which controller bytes the writing transactions store to, read byte by byte: REG_WRITE its register,
TX_REQUEST and TX_ABORT the transmit-control register, TX_LOAD the buffer's first bytes; every other byte reads as before. -/
def Obligations.BusWritesStoreOnlyTheirBytes : Prop :=
  ∀ (s u : State) (x : Nat),
    (∀ a v : Byte, exec (.regWrite a v) s = .next u →
      Memory.read u.chip.regs x = (if x = a.toNat then some v else Memory.read s.chip.regs x)
        ∧ Memory.read u.chip.txBuf x = Memory.read s.chip.txBuf x)
    ∧ (∀ p : Prio, exec (.txRequest p) s = .next u →
      Memory.read u.chip.regs x = (if x = s.params.chip.regTxctrl.toNat
          then some (s.params.chip.txctrlReq p) else Memory.read s.chip.regs x)
        ∧ Memory.read u.chip.txBuf x = Memory.read s.chip.txBuf x)
    ∧ (exec .txAbort s = .next u →
      Memory.read u.chip.regs x = (if x = s.params.chip.regTxctrl.toNat
          then some s.params.chip.txctrlAbort else Memory.read s.chip.regs x)
        ∧ Memory.read u.chip.txBuf x = Memory.read s.chip.txBuf x)
    ∧ (∀ t : List Byte, exec (.txLoad t) s = .next u →
      Memory.read u.chip.txBuf x = (if x < t.length then some (byteAt t x) else Memory.read s.chip.txBuf x)
        ∧ Memory.read u.chip.regs x = Memory.read s.chip.regs x)

/-- R159: MODE_SET, called at INITIALIZE's step 6, starts with its register write; when POLL alone runs it to its end, the history
is that write, then polls without the mode bits, then either a poll that shows them (`Ok`: INITIALIZE goes on at step 7, nothing of
the block changed) or, after at least one poll and `T_MODE_MS` of clock, nothing (`Timeout`: INITIALIZE returns
`ControllerNotPresent`, nothing of the block's state is changed, and where no driver exists `cfg` is unset again, log 17). -/
def Obligations.ModeSetOutcomes : Prop :=
  ∀ s : State, s.ctx = .poll → s.poll = .modeWrite →
    exec .modeSet s = .next { s with
        chip := ⟨false, Memory.write s.chip.regs s.params.chip.regMode.toNat s.params.chip.modeNormal, s.chip.txBuf⟩
        poll := .modeClock
        hist := s.hist ++ [writeEvent s.params.chip s.params.chip.regMode s.params.chip.modeNormal] }
    ∧ ∀ (k : Nat) (t : State), modeSetRun k s = .next t → t.poll.inMode = false →
      t.chip = ⟨false, Memory.write s.chip.regs s.params.chip.regMode.toNat s.params.chip.modeNormal, s.chip.txBuf⟩
        ∧ t.params = s.params ∧ t.ctx = s.ctx ∧ t.program = s.program ∧ t.env.storage = s.env.storage
        ∧ t.env.handed = s.env.handed ∧ t.drv = s.drv
        ∧ ∃ polls, ModePolls s.params.chip polls ∧
        ((∃ v, v &&& s.params.chip.modeStatMask = s.params.chip.modeStatNormal
            ∧ t.poll = .initState ∧ t.result = s.result
            ∧ t.hist = s.hist
              ++ writeEvent s.params.chip s.params.chip.regMode s.params.chip.modeNormal
              :: (polls ++ [readEvent s.params.chip s.params.chip.regStatus v]))
          ∨ (polls ≠ [] ∧ t.poll = .idle
            ∧ (s.drv.mode = .uninit → t.cfg = none)
            ∧ t.result = some (.inited (.error .controllerNotPresent))
            ∧ s.env.clock + s.params.tModeMs ≤ t.env.clock
            ∧ t.hist = s.hist
              ++ writeEvent s.params.chip s.params.chip.regMode s.params.chip.modeNormal :: polls))

/-- R161, R222: no step of the machine, no micro-step of POLL and no row of the operation table, whoever calls it, makes a
transaction but the block's own, the bit-timing writes being those of the configured oscillator; the timer callback makes none.
The premise on INITIALIZE's remaining writes is an invariant, which each keeps. -/
def Obligations.OnlyOwnTransactions : Prop :=
  (∀ s t : State, WritesOk s → (step s = .next t ∨ pollContinue s = .next t ∨ ∃ i, exec i s = .next t) →
    WritesOk t ∧ ∃ evs, t.hist = s.hist ++ evs ∧ ∀ w r, Event.tx w r ∈ evs → OwnTransaction s w)
  ∧ ∀ s t : State, exec .runEnumeration s = .next t → ∃ evs, t.hist = s.hist ++ evs ∧ ∀ w r, Event.tx w r ∉ evs

/-! ### INITIALIZE -/

/-- R172: INITIALIZE is refused on a live driver and for an oscillator that is not in the table. -/
def Obligations.InitializeRefusals : Prop :=
  ∀ (b c l : BitVec 32) (hz : Nat) (s : State), s.ctx = .poll → s.poll = .idle →
    (s.drv.mode = .ready → exec (.initDriver b c l hz) s = .refused .alreadyInitialized)
    ∧ (s.drv.mode = .uninit → (∀ ws, (hz, ws) ∉ s.params.oscTable) →
        exec (.initDriver b c l hz) s = .refused .unknownOscillator)

/-- R170, R171: INITIALIZE on an uninitialised driver with an oscillator of the table starts by keeping its arguments; when POLL
alone runs it to its return, the history and the result are one of the rule's three: absent at the status check, mode change not
confirmed in time, or `Ok` with the driver's reset values and the stored identifier or the default. On `Err` the
block's elements are as before the call, `cfg` unset (R53), and the assignment made is not undone (R240): log 17 says how both hold;
INITIALIZE, called again, does not look at it. What the model records of the controller after CHIP_RESET is log 7's, that `timerDeadline` keeps its value
log 6's, and that a stored pair may fail to be read log 1's. -/
def Obligations.InitializeOutcomes : Prop :=
  ∀ (b c l : BitVec 32) (hz : Nat) (ws : List (Byte × Byte)) (s : State),
    s.ctx = .poll → s.poll = .idle → s.drv.mode = .uninit → s.params.oscTable.lookup hz = some ws →
    exec (.initDriver b c l hz) s = .next { s with
        drv := { s.drv with given := some ⟨b, c, l, hz⟩ }, poll := .initReset, result := none }
    ∧ (∀ old, exec (.initDriver b c l hz) { s with drv := { s.drv with given := old } } = exec (.initDriver b c l hz) s)
    ∧ ∀ (k : Nat) (t : State), callRun (.initDriver b c l hz) k s = .next t → t.poll = .idle →
      t.params = s.params ∧ t.ctx = s.ctx ∧ t.program = s.program ∧ t.env.storage = s.env.storage
      ∧ t.env.handed = s.env.handed ∧ t.chip.txBuf = [] ∧
      ∃ v, let p := s.params.chip
        let list := ws ++ p.acceptAll ++ [(p.regInte, p.inteRx)]
        let first := s.hist ++ [.tx [p.cmdReset] [], readEvent p p.regStatus v]
        let base := first ++ writeEvents p list
          ++ [writeEvent p p.regMode p.modeNormal]
        (v &&& p.statusMask ≠ p.statusExpect ∧ t.hist = first
            ∧ t.drv = { s.drv with given := some ⟨b, c, l, hz⟩ } ∧ t.cfg = none
            ∧ t.chip.regs = [] ∧ t.result = some (.inited (.error .controllerNotPresent)))
        ∨ (v &&& p.statusMask = p.statusExpect
            ∧ t.chip.regs = writtenRegs [] (list ++ [(p.regMode, p.modeNormal)]) ∧ ∃ polls, ModePolls p polls ∧
            ((polls ≠ [] ∧ t.hist = base ++ polls ∧ s.env.clock + s.params.tModeMs ≤ t.env.clock
                ∧ t.drv = { s.drv with given := some ⟨b, c, l, hz⟩ } ∧ t.cfg = none
                ∧ t.result = some (.inited (.error .controllerNotPresent)))
              ∨ (∃ v', v' &&& p.modeStatMask = p.modeStatNormal
                ∧ t.hist = base ++ polls ++ [readEvent p p.regStatus v'] ∧ t.result = some (.inited (.ok ()))
                ∧ t.cfg = some ⟨b, c, l, hz⟩ ∧ ∃ stored, (stored = none ∨ stored = s.env.storage)
                  ∧ t.drv = { s.drv with
                      mode := .ready, given := some ⟨b, c, l, hz⟩, slots := s.params.n, ring := [], wr := 0, rd := 0
                      selfId := stored.getD s.params.selfIdDefault, seen := [], enum := false, absent := false
                      irqEnabled := true, irqMask := false, irqPend := false, timerArmed := false })))

/-- R78: INITIALIZE, and MODE_SET in it, finish when the clock advances: with at least `T_MODE_MS + 2` readings scripted, each at
least 1 ms later than the one before, POLL alone brings each to its end, whatever the controller answers. -/
def Obligations.InitializeFinishesWhenClockAdvances : Prop :=
  ∀ s : State, s.ctx = .poll → s.params.tModeMs + 2 ≤ s.env.ticks.length → (∀ d ∈ s.env.ticks, 1 ≤ d) →
    (∀ (b c l : BitVec 32) (hz : Nat), s.poll = .idle → s.drv.mode = .uninit →
        (s.params.oscTable.lookup hz).isSome = true →
        ∃ k t, callRun (.initDriver b c l hz) k s = .next t ∧ t.poll = .idle)
    ∧ (s.poll = .modeWrite → ∃ k t, modeSetRun k s = .next t ∧ t.poll.inMode = false)

/-- R22, R281: before INITIALIZE has succeeded every operation of the driver is refused, in the context whose code calls it
(contexts: R260, log 8). -/
def Obligations.DriverOperationsNeedReady : Prop :=
  ∀ (s : State) (w : WireString) (r : List Byte), s.drv.mode = .uninit →
    (s.ctx = .poll → s.poll = .idle → ∀ i ∈ [Instr.send w, .receive, .available], exec i s = .refused .notReady)
    ∧ (s.ctx = .irq → ∀ i ∈ [Instr.irqHandler, .txFire r, .ownId, .collisionRtr], exec i s = .refused .notReady)
    ∧ (s.ctx = .irq → exec .rxRead s = .refused .wrongContext ∧ exec (.txLoad r) s = .refused .wrongContext)
    ∧ (s.ctx = .timer → exec .runEnumeration s = .refused .notReady)

/-! ### SEND -/

/-- R182: SEND's first micro-step is the shape check: a malformed string returns its error at once, with nothing else changed; a
well-formed one goes on to S2, with the mask and the history untouched. -/
def Obligations.SendChecksShapeFirst : Prop :=
  ∀ (w : WireString) (s : State), s.ctx = .poll → s.poll = .idle → s.drv.mode = .ready →
    (∀ e, checkShape w = .error e →
      exec (.send w) s = .next { s with poll := .idle, result := some (.sent (.error e)) })
    ∧ (∀ c, checkShape w = .ok c → exec (.send w) s = .next { s with poll := .sendAbsent c, result := none })

/-- R183: while the controller is absent SEND returns `ControllerNotPresent` with no bus event and no state change; a malformed
string is reported as malformed even then. -/
def Obligations.SendWhileAbsent : Prop :=
  ∀ (w : WireString) (s : State), s.ctx = .poll → s.poll = .idle → s.drv.mode = .ready → s.drv.absent = true →
    (∀ e, checkShape w = .error e →
      callRun (.send w) 5 s = .next { s with poll := .idle, result := some (.sent (.error e)) })
    ∧ (∀ c, checkShape w = .ok c →
      callRun (.send w) 5 s = .next { s with
        poll := .idle, result := some (.sent (.error .controllerNotPresent)) })

/-- R190: the complete outcomes of SEND, run by POLL alone to its return from a state in which the interrupt is not masked:
the result, the bus events and the state change of every row; and a final timeout has taken at least `2 * T_TX_MS` of clock
(R187). The log event in the readback row's history is log 14's. -/
def Obligations.SendOutcomes : Prop :=
  ∀ (w : WireString) (s t : State) (k : Nat), s.poll = .idle → s.drv.mode = .ready → s.drv.irqMask = false →
    callRun (.send w) k s = .next t → t.poll = .idle →
    (∃ e, checkShape w = .error e ∧ t.result = some (.sent (.error e)) ∧ t.hist = s.hist ∧ t.drv = s.drv)
    ∨ ∃ c, checkShape w = .ok c ∧
      let p := s.params.chip
      let load := s.hist ++ [loadEvent p (mkTxRec p c.ext c.idfield c.rtr c.data), requestEvent p .high]
      (s.drv.absent = true ∧ t.result = some (.sent (.error .controllerNotPresent)) ∧ t.hist = s.hist
          ∧ t.drv = s.drv)
      ∨ (s.drv.absent = false ∧ ∃ v, v &&& p.txctrlReadyMask ≠ p.txctrlReadyHigh
          ∧ t.result = some (.sent (.error .controllerNotPresent))
          ∧ t.hist = load ++ [readEvent p p.regTxctrl v, .log .controllerNotPresent]
          ∧ t.drv = { s.drv with absent := true })
      ∨ (s.drv.absent = false ∧ t.drv = s.drv ∧ ∃ v polls, v &&& p.txctrlReadyMask = p.txctrlReadyHigh
          ∧ PendingPolls p polls ∧
          let first := load ++ readEvent p p.regTxctrl v :: polls
          ((∃ e, ClearPoll p e ∧ t.result = some (.sent (.ok ())) ∧ t.hist = first ++ [e])
            ∨ (polls ≠ [] ∧ ∃ polls', PendingPolls p polls' ∧
              let second := first ++ [abortEvent p, requestEvent p .retry] ++ polls'
              ((∃ e, ClearPoll p e ∧ t.result = some (.sent (.ok ())) ∧ t.hist = second ++ [e])
                ∨ (polls' ≠ [] ∧ t.result = some (.sent (.error .transmitTimeout))
                  ∧ t.hist = second ++ [abortEvent p] ∧ s.env.clock + 2 * 100 ≤ t.env.clock)))))

/-- R184, R189, R37: what SEND leaves alone, at every one of POLL's micro-steps of it: of the model's record of what the block wrote
to the controller (log 7; the chip itself may change its registers, R68) every register but the transmit-control register and every
byte of the transmit buffer past the record it loads, and of the block's own state everything but `absent` and the mask. -/
def Obligations.SendFrame : Prop :=
  ∀ (w : WireString) (s t : State) (k : Nat), callRun (.send w) k s = .next t →
    t.drv = { s.drv with absent := t.drv.absent, irqMask := t.drv.irqMask }
      ∧ t.params = s.params ∧ t.ctx = s.ctx ∧ t.program = s.program ∧ t.env.storage = s.env.storage
      ∧ t.env.handed = s.env.handed
      ∧ (∀ x, x ≠ s.params.chip.regTxctrl.toNat → Memory.read t.chip.regs x = Memory.read s.chip.regs x)
      ∧ (∀ c x, checkShape w = .ok c → 5 + c.data.length ≤ x →
          Memory.read t.chip.txBuf x = Memory.read s.chip.txBuf x)
      ∧ (∀ e, checkShape w = .error e → t.chip = s.chip)

/-- R78: SEND finishes when the clock advances: with at least 202 readings scripted, each at least 1 ms later than the one
before, POLL alone brings it to its return within 420 micro-steps, whatever the controller answers. -/
def Obligations.SendFinishesWhenClockAdvances : Prop :=
  ∀ (w : WireString) (s : State), s.ctx = .poll → s.poll = .idle → s.drv.mode = .ready →
    202 ≤ s.env.ticks.length → (∀ d ∈ s.env.ticks, 1 ≤ d) →
      ∃ t, callRun (.send w) 420 s = .next t ∧ t.poll = .idle

/-- R192, R260: TX_FIRE, in the interrupt context of a live driver: nothing while the controller is absent, else one load and one
request at the highest level, with no read and no wait; the block's own state is unchanged (the record of the controller is
log 7's). In every other context it is refused. -/
def Obligations.TxFireLoadsAndRequests : Prop :=
  ∀ (r : List Byte) (s : State), 5 ≤ r.length → r.length ≤ 13 → s.drv.mode = .ready →
    (s.ctx ≠ .irq → exec (.txFire r) s = .refused .wrongContext)
    ∧ (s.ctx = .irq → s.drv.absent = true → exec (.txFire r) s = .next s)
    ∧ (s.ctx = .irq → s.drv.absent = false → exec (.txFire r) s = .next { s with
        chip := ⟨false, Memory.write s.chip.regs s.params.chip.regTxctrl.toNat s.params.chip.txctrlReqHigh,
          Memory.writeAll s.chip.txBuf 0 r⟩
        hist := s.hist ++ [loadEvent s.params.chip r, requestEvent s.params.chip .high] })

/-! ### The receive path -/

/-- R209: the decision table of the handler, complete. `r` is the record that RX_READ answers; the outcomes are those of cases A,
B, C, and C then D, chosen by R207's two predicates, each with what it leaves unchanged: of the environment only the record's bytes
are taken and, in case D, the clock read. The controller image after a TX_FIRE is log 7's record of what was written. -/
def Obligations.HandlerDecisionTable : Prop :=
  ∀ s : State, s.ctx = .irq → s.deliverable = true → s.drv.wr < s.drv.slots →
    let r := s.rxRead.1
    let c := s.params.chip
    let m := recExt c r = false ∧ recId c r = s.drv.selfId
    let z := recRtr c r = true ∨ recLen c r = 0
    ∃ t, exec .irqHandler s = .next t
      ∧ t.params = s.params ∧ t.poll = s.poll ∧ t.result = s.result ∧ t.program = s.program ∧ t.ctx = .poll
      ∧ (idMatch c s.drv.selfId r = true ↔ m) ∧ (payloadLen c r = 0 ↔ z)
      ∧ (recRtr c r = true → m → HandlerA s r t)
      ∧ (recRtr c r = true → ¬ m → s.drv.enum = true → HandlerB s r t)
      ∧ (recRtr c r = true → ¬ m → s.drv.enum = false → HandlerC s r t)
      ∧ (recRtr c r = false → s.drv.enum = true → z → HandlerB s r t)
      ∧ (recRtr c r = false → ¬ m → s.drv.enum = false → z → HandlerC s r t)
      ∧ (recRtr c r = false → m → s.drv.enum = false → z → HandlerD s r t)
      ∧ (recRtr c r = false → ¬ m → ¬ z → HandlerC s r t)
      ∧ (recRtr c r = false → m → ¬ z → HandlerD s r t)

/-- R205: the producer never looks at the read index: with any other `rd` the handler does the same. -/
def Obligations.HandlerIgnoresReadIndex : Prop :=
  ∀ (s t : State) (k : Nat), exec .irqHandler s = .next t →
    exec .irqHandler { s with drv := { s.drv with rd := k } } = .next { t with drv := { t.drv with rd := k } }

/-- R252, R260: IRQ_HANDLER runs exactly in the interrupt context where it is deliverable: a live driver, the callback registered, an
edge pending, not masked. -/
def Obligations.HandlerRunsWhereDeliverable : Prop :=
  ∀ s : State, s.drv.wr < s.drv.slots →
    ((∃ t, exec .irqHandler s = .next t) ↔ s.ctx = .irq ∧
      s.drv.mode = .ready ∧ s.drv.irqEnabled = true ∧ s.drv.irqPend = true ∧ s.drv.irqMask = false)

/-- R210: RECEIVE, run by POLL alone: an empty ring gives `None` and nothing changes; else the bytes of slot `rd` as a wire
string, and `rd` advances; nothing else of the machine changes. -/
def Obligations.ReceiveReturnsOldestSlot : Prop :=
  ∀ s : State, s.ctx = .poll → s.poll = .idle → s.drv.mode = .ready → s.drv.rd < s.drv.slots →
    exec .receive s = .next { s with poll := .recvCompare s.drv.wr, result := none }
    ∧ (s.drv.wr = s.drv.rd →
      callRun .receive 20 s = .next { s with poll := .idle, result := some (.received none) })
    ∧ (s.drv.wr ≠ s.drv.rd →
      callRun .receive 20 s = .next { s with
        poll := .idle
        drv := { s.drv with rd := (s.drv.rd + 1) % s.params.n }
        result := some (.received (some (recToWire s.params.chip (slotBytes s s.drv.rd)))) })

/-- R215: AVAILABLE returns the number of unread records, in `[0, N-1]`, and changes nothing else. -/
def Obligations.AvailableCountsUnread : Prop :=
  ∀ s : State, s.ctx = .poll → s.poll = .idle → s.drv.mode = .ready → s.drv.wr < s.params.n → s.drv.rd < s.params.n →
    ∃ c, exec .available s = .next { s with poll := .idle, result := some (.count c) }
      ∧ c < s.params.n ∧ (s.drv.rd + c) % s.params.n = s.drv.wr

/-- R66 (b), (c), and (a) without dequeues: after `P` enqueues from an empty ring AVAILABLE returns `P mod N`, the next `P mod N`
RECEIVEs return the last `P mod N` records in arrival order, and the one after that returns `None`. -/
def Obligations.ReceiveInOrderAfterEnqueues : Prop :=
  ∀ (s : State) (rs : List (List Byte)), s.ctx = .poll → s.poll = .idle → s.drv.mode = .ready → 2 ≤ s.params.n →
    s.drv.slots = s.params.n → s.drv.wr < s.params.n → s.drv.rd = s.drv.wr → (∀ r ∈ rs, r.length = 13) →
    let t := rs.foldl State.enqueue s
    let k := rs.length % s.params.n
    exec .available t = .next { t with result := some (.count k) }
      ∧ ∃ u v, receiveMany k t
          = some ((rs.drop (rs.length - k)).map (fun r => some (recToWire s.params.chip r)), u)
        ∧ callRun .receive 20 u = .next v ∧ v.result = some (.received none)

/-- R75: with `c >= 1` unread records at RECEIVE's read of `wr`, and fewer than `N - c + 1` records enqueued between its
micro-steps, the record RECEIVE returns is the oldest unread one, whole. -/
def Obligations.ReceiveWholeUnderInterleaving : Prop :=
  ∀ (s t : State) (ms : List RingMove), s.poll = .recvCompare s.drv.wr → s.drv.mode = .ready →
    s.drv.slots = s.params.n → s.drv.wr < s.params.n → s.drv.rd < s.params.n → s.drv.wr ≠ s.drv.rd →
    (∀ r ∈ enqueuedBy ms, r.length = 13) →
    (enqueuedBy ms).length < s.params.n - ringCount s.params.n s.drv.wr s.drv.rd + 1 →
    ringRun ms s = .next t → t.poll = .idle →
      t.result = some (.received (some (recToWire s.params.chip (slotBytes s s.drv.rd))))
        ∧ t.drv.rd = (s.drv.rd + 1) % s.params.n

/-! ### Enumeration and the timer -/

/-- R222 to R225, R227: in the timer's context, where the timer is due and some candidate is not among the ids seen, RUN_ENUMERATION
adopts the first such in ascending order, hands it to durable storage, clears `enum`, the list and the timer, and changes nothing
else of the block; the callback returns to POLL's code (R256). -/
def Obligations.EnumerationAdoptsFirstFree : Prop :=
  ∀ (s : State) (a : Nat), s.ctx = .timer → s.drv.mode = .ready → s.drv.timerArmed = true →
    s.drv.timerDeadline ≤ s.now.1 → 1 ≤ a → a ≤ 127 → idOf a ∉ s.drv.seen →
    (∀ b, 1 ≤ b → b < a → idOf b ∈ s.drv.seen) →
    exec .runEnumeration s = .next { s with
      ctx := .poll
      drv := { s.drv with selfId := idOf a, enum := false, seen := [], timerArmed := false }
      env := { s.now.2.env with handed := s.env.handed ++ [idOf a] }
      hist := s.hist ++ [.persist (idOf a)] }

/-- R226: when every identifier is taken, none is adopted and nothing is persisted; `enum`, the list and the timer are cleared. -/
def Obligations.EnumerationAllTaken : Prop :=
  ∀ s : State, s.ctx = .timer → s.drv.mode = .ready → s.drv.timerArmed = true → s.drv.timerDeadline ≤ s.now.1 →
    (∀ a, 1 ≤ a → a ≤ 127 → idOf a ∈ s.drv.seen) →
    exec .runEnumeration s = .next { s with
      ctx := .poll
      drv := { s.drv with enum := false, seen := [], timerArmed := false }
      env := s.now.2.env }

/-- R264, R260: the TIMER step is enabled exactly when the timer is armed and the clock has reached the deadline, in the timer's
context (and on a live driver, log 13). -/
def Obligations.TimerStepEnabledExactlyWhenDue : Prop :=
  ∀ s : State, (∃ t, exec .runEnumeration s = .next t) ↔ s.ctx = .timer ∧
    s.drv.mode = .ready ∧ s.drv.timerArmed = true ∧ s.drv.timerDeadline ≤ s.now.1

/-- R80, R228: when ENV settles, the oldest pair handed to durable storage becomes its content or is lost, nothing else of the
machine changes, and with nothing handed over nothing happens; INITIALIZE's step 7 then takes what storage holds, or, if the read
fails or storage holds none, the default (R174). That ENV settles in the order of the events is log 18's. -/
def Obligations.StorageSettlesInOrder : Prop :=
  ∀ s : State,
    (s.env.handed = [] → takeMove .settle s = .next s)
    ∧ (∀ p rest, s.env.handed = p :: rest → ∃ t, takeMove .settle s = .next t
        ∧ t = { s with env := { t.env with clock := s.env.clock, answers := s.env.answers, ticks := s.env.ticks,
                                            turns := s.env.turns } }
        ∧ t.env.handed = rest ∧ (t.env.storage = some p ∨ t.env.storage = s.env.storage)
        ∧ (∀ b bs, s.env.stores = b :: bs → t.env.stores = bs ∧ t.env.drawn = s.env.drawn
            ∧ t.env.storage = if b then some p else s.env.storage))
    ∧ (s.poll = .initState → ∃ t, pollContinue s = .next t ∧ t.poll = .initRegister ∧ t.env.storage = s.env.storage
        ∧ t.env.handed = s.env.handed
        ∧ (t.drv.selfId = s.env.storage.getD s.params.selfIdDefault ∨ t.drv.selfId = s.params.selfIdDefault)
        ∧ (∀ bs, s.env.stores = true :: bs → t.drv.selfId = s.env.storage.getD s.params.selfIdDefault)
        ∧ (∀ bs, s.env.stores = false :: bs → t.drv.selfId = s.params.selfIdDefault))

/-- R251: what a falling edge does, in all its cases. -/
def Obligations.FallingEdgePending : Prop :=
  ∀ s : State,
    (s.drv.irqEnabled = false → takeMove .edge s = .next s)
    ∧ (s.drv.irqEnabled = true → s.drv.irqMask = false ∨ s.params.maskedEdge = .latch →
        takeMove .edge s = .next { s with drv := { s.drv with irqPend := true } })
    ∧ (s.drv.irqEnabled = true → s.drv.irqMask = true → s.params.maskedEdge = .drop →
        takeMove .edge s = .next s)

/-! ### The machine as a whole -/

/-- One step runs the operation that the issue stream's bytes decode to, on the state with those bytes taken away, when it is the
running code's turn and no operation is in progress; inside an operation it runs POLL's next micro-step; on IRQ's and TIMER's turns
the two handlers, in their contexts, where they are deliverable and due (the stream and the turns are the model's own, log 1 and
log 2; that a turn not enabled changes nothing is log 13's). -/
def Obligations.StepRunsDecodedOperation : Prop :=
  ∀ s : State,
    let u := s.takeTurn.2
    let fetches := s.takeTurn.1 = .run ∧ (s.ctx = .poll → s.poll = .idle)
    (fetches → ∀ i rest, s.program ≠ [] →
      Sys2Proof.decode s.program = .ok (i, rest) → step s = exec i { u with program := rest })
    ∧ (fetches → s.program = [] → step s = .next u)
    ∧ (fetches → ∀ e, s.program ≠ [] → Sys2Proof.decode s.program = .error e →
        step s = .refused (.illegalEncoding e))
    ∧ (s.takeTurn.1 = .run → s.ctx = .poll → s.poll ≠ .idle → step s = pollContinue u)
    ∧ (s.takeTurn.1 = .irq → s.ctx = .poll → s.deliverable = true → step s = exec .irqHandler { u with ctx := .irq })
    ∧ (s.takeTurn.1 = .irq → s.ctx ≠ .poll ∨ s.deliverable = false → step s = .next u)
    ∧ (s.takeTurn.1 = .timer → s.ctx = .poll → (∃ t, exec .runEnumeration { u with ctx := .timer } = .next t) →
        step s = exec .runEnumeration { u with ctx := .timer })
    ∧ (s.takeTurn.1 = .timer → (s.ctx = .poll → ∀ t, exec .runEnumeration { u with ctx := .timer } ≠ .next t) →
        step s = .next u.now.2)
    ∧ (∀ (nbits w : Nat) (i : Instr) (rest : List Byte), Sys2Proof.decode (tableStream nbits w) = .ok (i, rest) →
        step (s.withFetchWord nbits w) = exec i { s with program := rest, ctx := callContext i, poll := .idle })

/-- R260: the context table. POLL's operations, and the data formats that POLL's code writes and reads, are refused in the two
other contexts; IRQ_HANDLER, TX_FIRE and the pseudo-frames outside the interrupt context; RUN_ENUMERATION outside the timer's; a
POLL operation inside another one (00_scope R11); and every step of POLL's context ends in POLL's context, since a handler's whole
run is one step (R254, R256). The place of the format rows is log 9's. -/
def Obligations.ContextTable : Prop :=
  (∀ (s : State) (w : WireString) (ext : Bool) (id : BitVec 32) (op : Byte) (d r : List Byte) (b c l : BitVec 32) (hz : Nat)
      (f : BitVec 16) (x : BitVec 32),
    let ops := [Instr.encode ext id op d, .decode w, .initDriver b c l hz, .send w, .receive, .available, .wireSN f d,
      .wireSR f d, .wireXN x d, .wireXR x d, .opc0D d, .opc10 d, .opc42 d, .opc50 d, .opc52 d, .opc53 d, .opc54 d, .opc57 d,
      .opc58 d, .opc71 d, .opc73 d, .opc90 d, .opc91 d, .opc95 d, .opc96 d, .opc98 d, .opc99 d, .opc9C d, .opcD2 d]
    (s.ctx ≠ .poll → ∀ i ∈ ops, exec i s = .refused .wrongContext)
    ∧ (s.ctx = .poll → s.poll ≠ .idle → ∀ i ∈ ops, exec i s = .refused .pollBusy)
    ∧ (s.ctx ≠ .irq → ∀ i ∈ [Instr.irqHandler, .txFire r, .ownId, .collisionRtr], exec i s = .refused .wrongContext)
    ∧ (s.ctx ≠ .timer → exec .runEnumeration s = .refused .wrongContext))
  ∧ ∀ s t : State, s.ctx = .poll → step s = .next t → t.ctx = .poll

/-- R37: who writes what on a live driver, in every step but a restart of the program, and in every operation called by itself.
POLL's micro-steps leave the producer's, the timer's and the fixed elements alone; the handler leaves POLL's, the timer's and the
fixed ones; the timer callback leaves everything but its own; an edge only sets the pending flag; storage and every other row of
the operation table change nothing of the block. -/
def Obligations.SoleWriters : Prop :=
  ∀ s t : State, s.drv.mode = .ready →
    (s.poll.inInit = false → pollContinue s = .next t →
      t.drv = { s.drv with rd := t.drv.rd, absent := t.drv.absent, irqMask := t.drv.irqMask })
    ∧ (exec .irqHandler s = .next t →
      t.drv = { s.drv with
        ring := t.drv.ring, wr := t.drv.wr, seen := t.drv.seen, enum := t.drv.enum, irqPend := false
        timerArmed := t.drv.timerArmed, timerDeadline := t.drv.timerDeadline }
      ∧ (s.drv.enum = true → t.drv.enum = true) ∧ (∃ more, t.drv.seen = s.drv.seen ++ more)
      ∧ RingOutside s t s.drv.wr)
    ∧ (exec .runEnumeration s = .next t →
      t.drv = { s.drv with
        selfId := t.drv.selfId, seen := [], enum := false, timerArmed := false })
    ∧ (∀ i, i ≠ .irqHandler → i ≠ .runEnumeration → exec i s = .next t → t.drv = s.drv)
    ∧ (takeMove .edge s = .next t → t.drv = { s.drv with irqPend := t.drv.irqPend } ∧ (s.drv.irqPend = true → t.drv.irqPend = true))
    ∧ (takeMove .settle s = .next t → t.drv = s.drv)
    ∧ (s.ctx = .poll → s.poll.inInit = false → step s = .next t →
      (s.takeTurn.1 = .run →
        t.drv = { s.drv with rd := t.drv.rd, absent := t.drv.absent, irqMask := t.drv.irqMask })
      ∧ (s.takeTurn.1 = .irq → t.drv = { s.drv with
          ring := t.drv.ring, wr := t.drv.wr, seen := t.drv.seen, enum := t.drv.enum, irqPend := t.drv.irqPend
          timerArmed := t.drv.timerArmed, timerDeadline := t.drv.timerDeadline })
      ∧ (s.takeTurn.1 = .timer → t.drv = { s.drv with
          selfId := t.drv.selfId, seen := t.drv.seen, enum := t.drv.enum, timerArmed := t.drv.timerArmed })
      ∧ (s.takeTurn.1 = .edge → t.drv = { s.drv with irqPend := t.drv.irqPend })
      ∧ (s.takeTurn.1 = .settle → t.drv = s.drv))

/-- R244: which operation can return which error: DECODE and SEND's first micro-step the four shape errors; SEND afterwards
`ControllerNotPresent` or `TransmitTimeout`; INITIALIZE `ControllerNotPresent`. -/
def Obligations.ErrorsByOperation : Prop :=
  (∀ w e, decodeText w = .error e → isShapeError e = true)
    ∧ (∀ w s t e, exec (.send w) s = .next t → t.result = some (.sent (.error e)) → isShapeError e = true)
    ∧ (∀ s t, pollContinue s = .next t → s.poll ≠ .idle → t.poll = .idle →
        (∀ e, t.result = some (.sent (.error e)) → e = .controllerNotPresent ∨ e = .transmitTimeout)
        ∧ (∀ e, t.result = some (.inited (.error e)) → e = .controllerNotPresent)
        ∧ (∀ e, t.result ≠ some (.decoded (.error e))))

/-- R30, R22: on a live driver `absent` is never cleared and `mode` never leaves Ready, whatever moves, but for a restart of the
program (70_reset R283). The premise is the lifecycle invariant. -/
def Obligations.AbsentAndReadyAreOneWay : Prop :=
  ∀ s t : State, LifeOk s → s.drv.mode = .ready → s.takeTurn.1 ≠ .restart → step s = .next t →
    t.drv.mode = .ready ∧ (s.drv.absent = true → t.drv.absent = true) ∧ t.cfg = s.cfg

/-- R262: the clock never decreases, whatever moves; that it goes on over a restart of the program is log 11's, that it is an
unbounded number that advances at readings log 15's. -/
def Obligations.ClockNeverDecreases : Prop :=
  ∀ s t : State, step s = .next t → s.env.clock ≤ t.env.clock

/-- R151: chip-select is deasserted between transactions: every step from a state in which it is leaves it so; and the history only
grows (over a restart of the program too, which is log 11's). -/
def Obligations.ChipSelectRestsAndHistoryGrows : Prop :=
  ∀ s t : State, step s = .next t →
    (s.chip.cs = false → t.chip.cs = false) ∧ ∃ evs, t.hist = s.hist ++ evs

/-- R283: a restart brings the block back to power-on; of its state only the id pair in durable storage survives, with the pairs
handed to storage that are still to settle (log 18). -/
def Obligations.RestartKeepsOnlyStorage : Prop :=
  ∀ s : State, ∃ t, takeMove .restart s = .next t ∧ t.drv = Driver.powerOn ∧ t.poll = .idle ∧ t.ctx = .poll
    ∧ t.result = none ∧ t.env.storage = s.env.storage ∧ t.env.handed = s.env.handed ∧ t.params = s.params

/-- Every step keeps every memory in its canonical form (the form is the model's own, log 5). -/
def Obligations.StepKeepsMemoryCanonical : Prop := ∀ s t : State, MemOk s → step s = .next t → MemOk t

/-- R189: every step keeps the mask discipline: the interrupt source is masked exactly between SEND's S4 and its exit, so no path
returns with the mask set. -/
def Obligations.StepKeepsMaskDiscipline : Prop := ∀ s t : State, MaskOk s → step s = .next t → MaskOk t

/-- R22, R24, R25, R53, R64: every step keeps the lifecycle invariant. -/
def Obligations.StepKeepsLifecycle : Prop := ∀ s t : State, LifeOk s → step s = .next t → LifeOk t

/-- R27, R28: every step keeps the identifiers clean and the ids seen within their capacity. -/
def Obligations.StepKeepsIdentifiers : Prop :=
  ∀ s t : State, LifeOk s → IdOk s → step s = .next t → IdOk t

/-- R23: every step keeps what makes every slot that RECEIVE reads a written one; and RECEIVE's copy then reads a written byte. -/
def Obligations.ReceiveReadsOnlyWrittenSlots : Prop :=
  (∀ s t : State, LifeOk s → SlotsOk s → step s = .next t → SlotsOk t)
    ∧ ∀ (s : State) (b : List Byte), LifeOk s → SlotsOk s → s.poll = .recvCopy b →
        ∃ v, Memory.read s.drv.ring (slotAddr s.drv.rd b.length) = some v ∧
          ∃ t, pollContinue s = .next t ∧
            (t.poll = .recvCopy (b ++ [v]) ∨ t.poll = .recvAdvance (b ++ [v]))

/-- R53, R280, R281: the power-on values, and the invariants hold there for any parameters that meet their requirements (the values
of what the spec leaves unset are log 6's). -/
def Obligations.PowerOnMeetsInvariants : Prop :=
  ∀ p : Params, p.wf = true →
    let s := State.powerOn p
    s.drv.mode = .uninit ∧ s.cfg = none ∧ s.drv.given = none ∧ s.drv.enum = false ∧ s.drv.absent = false ∧ s.drv.irqEnabled = false
      ∧ s.drv.irqMask = false ∧ s.drv.irqPend = false ∧ s.drv.timerArmed = false ∧ s.poll = .idle
      ∧ s.ctx = .poll
      ∧ MemOk s ∧ MaskOk s ∧ LifeOk s ∧ IdOk s ∧ SlotsOk s ∧ WritesOk s
      ∧ State.reset = State.powerOn Config.params
end

