-- ==== Sys2Proof/Laws/Memory.lean ====
section
/-! SUPPORT. Memory: a read after a write, and the canonical form that every write keeps. -/

namespace Sys2Proof.Machine

/-- Every address of a canonical tail is above the head's. -/
theorem Memory.wf_cons {b : Nat} {v : Byte} {m : Memory} :
    Memory.wf ((b, v) :: m) = true ↔ (∀ c ∈ m, b < c.1) ∧ Memory.wf m = true := by
  induction m generalizing b v with
  | nil => simp [Memory.wf]
  | cons d rest ih =>
    obtain ⟨d1, d2⟩ := d
    have := @ih d1 d2
    simp only [Memory.wf, Bool.and_eq_true, decide_eq_true_eq, List.mem_cons, forall_eq_or_imp]
    constructor
    · rintro ⟨h1, h2⟩
      exact ⟨⟨h1, fun c hc => lt_trans h1 ((this.1 h2).1 c hc)⟩, h2⟩
    · rintro ⟨⟨h1, _⟩, h2⟩
      exact ⟨h1, h2⟩

/-- Where a write's addresses come from. -/
theorem Memory.mem_write {m : Memory} {a : Nat} {v : Byte} {c : Host.Cell} (h : c ∈ Memory.write m a v) :
    c = (a, v) ∨ c ∈ m := by
  induction m with
  | nil => simpa [Memory.write] using h
  | cons d rest ih =>
    obtain ⟨b, u⟩ := d
    simp only [Memory.write] at h
    split at h
    · simpa using h
    · split at h
      · rcases List.mem_cons.1 h with h | h
        · exact .inl h
        · exact .inr (List.mem_cons_of_mem _ h)
      · rcases List.mem_cons.1 h with h | h
        · exact .inr (h ▸ List.mem_cons_self)
        · exact (ih h).imp id (List.mem_cons_of_mem _)

/-- A write keeps the canonical form. -/
theorem Memory.wf_write {m : Memory} (a : Nat) (v : Byte) (h : Memory.wf m = true) :
    Memory.wf (Memory.write m a v) = true := by
  induction m with
  | nil => rfl
  | cons d rest ih =>
    obtain ⟨b, u⟩ := d
    have hc := Memory.wf_cons.1 h
    simp only [Memory.write]
    split
    · rename_i hab
      refine Memory.wf_cons.2 ⟨fun c hcm => ?_, h⟩
      rcases List.mem_cons.1 hcm with rfl | hcm
      · exact hab
      · exact lt_trans hab (hc.1 c hcm)
    · split
      · rename_i _ hab
        subst hab
        exact Memory.wf_cons.2 hc
      · refine Memory.wf_cons.2 ⟨fun c hcm => ?_, ih hc.2⟩
        rcases Memory.mem_write hcm with rfl | hcm
        · show b < a
          omega
        · exact hc.1 c hcm

/-- Writing bytes keeps the canonical form. -/
theorem Memory.wf_writeAll {m : Memory} (a : Nat) (vs : List Byte) (h : Memory.wf m = true) :
    Memory.wf (Memory.writeAll m a vs) = true := by
  induction vs generalizing m a with
  | nil => exact h
  | cons v vs ih => exact ih _ (Memory.wf_write a v h)

/-- A read after a write: the written byte at its address, every other address as before. -/
theorem Memory.read_write (m : Memory) (a a' : Nat) (v : Byte) :
    Memory.read (Memory.write m a v) a' = if a' = a then some v else Memory.read m a' := by
  induction m with
  | nil => simp [Memory.write, Memory.read]
  | cons d rest ih =>
    obtain ⟨b, u⟩ := d
    simp only [Memory.write]
    split
    · simp only [Memory.read]
    · split
      · rename_i _ hab
        subst hab
        simp only [Memory.read]
        split <;> rfl
      · rename_i h1 h2
        simp only [Memory.read, ih]
        by_cases h3 : a' = b
        · have : a' ≠ a := fun h => h2 (h ▸ h3)
          simp [h3, show b ≠ a from fun h => h2 h.symm]
        · simp [h3]

/-- A read after writing bytes from an address on. -/
theorem Memory.read_writeAll (m : Memory) (a a' : Nat) (vs : List Byte) :
    Memory.read (Memory.writeAll m a vs) a' =
      if a ≤ a' ∧ a' < a + vs.length then some (vs.getD (a' - a) 0) else Memory.read m a' := by
  induction vs generalizing m a with
  | nil => simp [Memory.writeAll]
  | cons v vs ih =>
    simp only [Memory.writeAll, ih, Memory.read_write, List.length_cons]
    by_cases h1 : a' = a
    · subst h1; simp
    · by_cases h2 : a + 1 ≤ a' ∧ a' < a + 1 + vs.length
      · have h3 : a ≤ a' ∧ a' < a + (vs.length + 1) := by omega
        have h4 : a' - a = (a' - (a + 1)) + 1 := by omega
        simp [h2, h3, h4]
      · have h3 : ¬ (a ≤ a' ∧ a' < a + (vs.length + 1)) := by omega
        rw [if_neg h2, if_neg h3, if_neg h1]

/-- Reset's three memories are in the canonical form (nothing is listed in them). -/
theorem reset_memories_wf :
    Memory.wf State.reset.drv.ring = true ∧ Memory.wf State.reset.chip.regs = true
      ∧ Memory.wf State.reset.chip.txBuf = true := ⟨rfl, rfl, rfl⟩

end Sys2Proof.Machine
end

