-- ==== Sys2Proof/Laws/State.lean ====
section
/-! SUPPORT. One lemma per field per named update of State, so that no later proof unfolds a record update. -/

namespace Sys2Proof.Machine

variable (s : State)

/-! ### `State.cfg` -/

theorem State.cfg_ready (h : s.drv.mode = .ready) : s.cfg = s.drv.given := if_pos (.inl h)
theorem State.cfg_inInit (h : s.poll.inInit = true) : s.cfg = s.drv.given := if_pos (.inr h)
theorem State.cfg_unset (h : s.drv.mode = .uninit) (hp : s.poll.inInit = false) : s.cfg = none := by
  simp [State.cfg, h, hp]

/-! ### `State.goto` -/

@[simp] theorem State.goto_params (p : PollPos) : (s.goto p).params = s.params := rfl
@[simp] theorem State.goto_drv (p : PollPos) : (s.goto p).drv = s.drv := rfl
@[simp] theorem State.goto_chip (p : PollPos) : (s.goto p).chip = s.chip := rfl
@[simp] theorem State.goto_env (p : PollPos) : (s.goto p).env = s.env := rfl
@[simp] theorem State.goto_poll (p : PollPos) : (s.goto p).poll = p := rfl
@[simp] theorem State.goto_result (p : PollPos) : (s.goto p).result = s.result := rfl
@[simp] theorem State.goto_program (p : PollPos) : (s.goto p).program = s.program := rfl
@[simp] theorem State.goto_ctx (p : PollPos) : (s.goto p).ctx = s.ctx := rfl
@[simp] theorem State.goto_hist (p : PollPos) : (s.goto p).hist = s.hist := rfl

/-! ### `State.ret` -/

@[simp] theorem State.ret_params (v : Ret) : (s.ret v).params = s.params := rfl
@[simp] theorem State.ret_drv (v : Ret) : (s.ret v).drv = s.drv := rfl
@[simp] theorem State.ret_chip (v : Ret) : (s.ret v).chip = s.chip := rfl
@[simp] theorem State.ret_env (v : Ret) : (s.ret v).env = s.env := rfl
@[simp] theorem State.ret_poll (v : Ret) : (s.ret v).poll = .idle := rfl
@[simp] theorem State.ret_result (v : Ret) : (s.ret v).result = some v := rfl
@[simp] theorem State.ret_program (v : Ret) : (s.ret v).program = s.program := rfl
@[simp] theorem State.ret_ctx (v : Ret) : (s.ret v).ctx = s.ctx := rfl
@[simp] theorem State.ret_hist (v : Ret) : (s.ret v).hist = s.hist := rfl

/-! ### `State.answer` -/

@[simp] theorem State.answer_params (v : Ret) : (s.answer v).params = s.params := rfl
@[simp] theorem State.answer_drv (v : Ret) : (s.answer v).drv = s.drv := rfl
@[simp] theorem State.answer_chip (v : Ret) : (s.answer v).chip = s.chip := rfl
@[simp] theorem State.answer_env (v : Ret) : (s.answer v).env = s.env := rfl
@[simp] theorem State.answer_poll (v : Ret) : (s.answer v).poll = s.poll := rfl
@[simp] theorem State.answer_result (v : Ret) : (s.answer v).result = some v := rfl
@[simp] theorem State.answer_program (v : Ret) : (s.answer v).program = s.program := rfl
@[simp] theorem State.answer_ctx (v : Ret) : (s.answer v).ctx = s.ctx := rfl
@[simp] theorem State.answer_hist (v : Ret) : (s.answer v).hist = s.hist := rfl

/-! ### `State.start` -/

@[simp] theorem State.start_params (p : PollPos) : (s.start p).params = s.params := rfl
@[simp] theorem State.start_drv (p : PollPos) : (s.start p).drv = s.drv := rfl
@[simp] theorem State.start_chip (p : PollPos) : (s.start p).chip = s.chip := rfl
@[simp] theorem State.start_env (p : PollPos) : (s.start p).env = s.env := rfl
@[simp] theorem State.start_poll (p : PollPos) : (s.start p).poll = p := rfl
@[simp] theorem State.start_result (p : PollPos) : (s.start p).result = none := rfl
@[simp] theorem State.start_program (p : PollPos) : (s.start p).program = s.program := rfl
@[simp] theorem State.start_ctx (p : PollPos) : (s.start p).ctx = s.ctx := rfl
@[simp] theorem State.start_hist (p : PollPos) : (s.start p).hist = s.hist := rfl

/-! ### `State.record` -/

@[simp] theorem State.record_params (e : Event) : (s.record e).params = s.params := rfl
@[simp] theorem State.record_drv (e : Event) : (s.record e).drv = s.drv := rfl
@[simp] theorem State.record_chip (e : Event) : (s.record e).chip = s.chip := rfl
@[simp] theorem State.record_env (e : Event) : (s.record e).env = s.env := rfl
@[simp] theorem State.record_poll (e : Event) : (s.record e).poll = s.poll := rfl
@[simp] theorem State.record_result (e : Event) : (s.record e).result = s.result := rfl
@[simp] theorem State.record_program (e : Event) : (s.record e).program = s.program := rfl
@[simp] theorem State.record_ctx (e : Event) : (s.record e).ctx = s.ctx := rfl
@[simp] theorem State.record_hist (e : Event) : (s.record e).hist = s.hist ++ [e] := rfl

/-! ### `State.setEnv` -/

@[simp] theorem State.setEnv_params (e : Env) : (s.setEnv e).params = s.params := rfl
@[simp] theorem State.setEnv_drv (e : Env) : (s.setEnv e).drv = s.drv := rfl
@[simp] theorem State.setEnv_chip (e : Env) : (s.setEnv e).chip = s.chip := rfl
@[simp] theorem State.setEnv_env (e : Env) : (s.setEnv e).env = e := rfl
@[simp] theorem State.setEnv_poll (e : Env) : (s.setEnv e).poll = s.poll := rfl
@[simp] theorem State.setEnv_result (e : Env) : (s.setEnv e).result = s.result := rfl
@[simp] theorem State.setEnv_program (e : Env) : (s.setEnv e).program = s.program := rfl
@[simp] theorem State.setEnv_ctx (e : Env) : (s.setEnv e).ctx = s.ctx := rfl
@[simp] theorem State.setEnv_hist (e : Env) : (s.setEnv e).hist = s.hist := rfl

/-! ### `State.setChip` -/

@[simp] theorem State.setChip_params (c : ChipImage) : (s.setChip c).params = s.params := rfl
@[simp] theorem State.setChip_drv (c : ChipImage) : (s.setChip c).drv = s.drv := rfl
@[simp] theorem State.setChip_chip (c : ChipImage) : (s.setChip c).chip = c := rfl
@[simp] theorem State.setChip_env (c : ChipImage) : (s.setChip c).env = s.env := rfl
@[simp] theorem State.setChip_poll (c : ChipImage) : (s.setChip c).poll = s.poll := rfl
@[simp] theorem State.setChip_result (c : ChipImage) : (s.setChip c).result = s.result := rfl
@[simp] theorem State.setChip_program (c : ChipImage) : (s.setChip c).program = s.program := rfl
@[simp] theorem State.setChip_ctx (c : ChipImage) : (s.setChip c).ctx = s.ctx := rfl
@[simp] theorem State.setChip_hist (c : ChipImage) : (s.setChip c).hist = s.hist := rfl

/-! ### `State.setDrv` -/

@[simp] theorem State.setDrv_params (d : Driver) : (s.setDrv d).params = s.params := rfl
@[simp] theorem State.setDrv_drv (d : Driver) : (s.setDrv d).drv = d := rfl
@[simp] theorem State.setDrv_chip (d : Driver) : (s.setDrv d).chip = s.chip := rfl
@[simp] theorem State.setDrv_env (d : Driver) : (s.setDrv d).env = s.env := rfl
@[simp] theorem State.setDrv_poll (d : Driver) : (s.setDrv d).poll = s.poll := rfl
@[simp] theorem State.setDrv_result (d : Driver) : (s.setDrv d).result = s.result := rfl
@[simp] theorem State.setDrv_program (d : Driver) : (s.setDrv d).program = s.program := rfl
@[simp] theorem State.setDrv_ctx (d : Driver) : (s.setDrv d).ctx = s.ctx := rfl
@[simp] theorem State.setDrv_hist (d : Driver) : (s.setDrv d).hist = s.hist := rfl

/-! ### `State.setProgram` -/

@[simp] theorem State.setProgram_params (bs : List Byte) : (s.setProgram bs).params = s.params := rfl
@[simp] theorem State.setProgram_drv (bs : List Byte) : (s.setProgram bs).drv = s.drv := rfl
@[simp] theorem State.setProgram_chip (bs : List Byte) : (s.setProgram bs).chip = s.chip := rfl
@[simp] theorem State.setProgram_env (bs : List Byte) : (s.setProgram bs).env = s.env := rfl
@[simp] theorem State.setProgram_poll (bs : List Byte) : (s.setProgram bs).poll = s.poll := rfl
@[simp] theorem State.setProgram_result (bs : List Byte) : (s.setProgram bs).result = s.result := rfl
@[simp] theorem State.setProgram_program (bs : List Byte) : (s.setProgram bs).program = bs := rfl
@[simp] theorem State.setProgram_ctx (bs : List Byte) : (s.setProgram bs).ctx = s.ctx := rfl
@[simp] theorem State.setProgram_hist (bs : List Byte) : (s.setProgram bs).hist = s.hist := rfl

/-! ### `State.enter` and `State.leave` -/

@[simp] theorem State.enter_params (c : Context) : (s.enter c).params = s.params := rfl
@[simp] theorem State.enter_drv (c : Context) : (s.enter c).drv = s.drv := rfl
@[simp] theorem State.enter_chip (c : Context) : (s.enter c).chip = s.chip := rfl
@[simp] theorem State.enter_env (c : Context) : (s.enter c).env = s.env := rfl
@[simp] theorem State.enter_poll (c : Context) : (s.enter c).poll = s.poll := rfl
@[simp] theorem State.enter_result (c : Context) : (s.enter c).result = s.result := rfl
@[simp] theorem State.enter_program (c : Context) : (s.enter c).program = s.program := rfl
@[simp] theorem State.enter_hist (c : Context) : (s.enter c).hist = s.hist := rfl
@[simp] theorem State.enter_ctx (c : Context) : (s.enter c).ctx = c := rfl

@[simp] theorem State.leave_params : s.leave.params = s.params := rfl
@[simp] theorem State.leave_drv : s.leave.drv = s.drv := rfl
@[simp] theorem State.leave_chip : s.leave.chip = s.chip := rfl
@[simp] theorem State.leave_env : s.leave.env = s.env := rfl
@[simp] theorem State.leave_poll : s.leave.poll = s.poll := rfl
@[simp] theorem State.leave_result : s.leave.result = s.result := rfl
@[simp] theorem State.leave_program : s.leave.program = s.program := rfl
@[simp] theorem State.leave_hist : s.leave.hist = s.hist := rfl
@[simp] theorem State.leave_ctx : s.leave.ctx = .poll := rfl

/-! ### Reads of the clock and of the script -/

@[simp] theorem State.now_params : s.now.2.params = s.params := rfl
@[simp] theorem State.now_drv : s.now.2.drv = s.drv := rfl
@[simp] theorem State.now_chip : s.now.2.chip = s.chip := rfl
@[simp] theorem State.now_env : s.now.2.env = s.env.takeTick.2 := rfl
@[simp] theorem State.now_poll : s.now.2.poll = s.poll := rfl
@[simp] theorem State.now_result : s.now.2.result = s.result := rfl
@[simp] theorem State.now_program : s.now.2.program = s.program := rfl
@[simp] theorem State.now_ctx : s.now.2.ctx = s.ctx := rfl
@[simp] theorem State.now_hist : s.now.2.hist = s.hist := rfl

@[simp] theorem State.takeTurn_params : s.takeTurn.2.params = s.params := rfl
@[simp] theorem State.takeTurn_drv : s.takeTurn.2.drv = s.drv := rfl
@[simp] theorem State.takeTurn_chip : s.takeTurn.2.chip = s.chip := rfl
@[simp] theorem State.takeTurn_env : s.takeTurn.2.env = s.env.takeTurn.2 := rfl
@[simp] theorem State.takeTurn_poll : s.takeTurn.2.poll = s.poll := rfl
@[simp] theorem State.takeTurn_result : s.takeTurn.2.result = s.result := rfl
@[simp] theorem State.takeTurn_program : s.takeTurn.2.program = s.program := rfl
@[simp] theorem State.takeTurn_ctx : s.takeTurn.2.ctx = s.ctx := rfl
@[simp] theorem State.takeTurn_hist : s.takeTurn.2.hist = s.hist := rfl

@[simp] theorem Env.takeByte_clock (e : Env) : e.takeByte.2.clock = e.clock := by unfold Env.takeByte; split <;> rfl
@[simp] theorem Env.takeByte_storage (e : Env) : e.takeByte.2.storage = e.storage := by unfold Env.takeByte; split <;> rfl
@[simp] theorem Env.takeByte_handed (e : Env) : e.takeByte.2.handed = e.handed := by unfold Env.takeByte; split <;> rfl
@[simp] theorem Env.takeByte_turns (e : Env) : e.takeByte.2.turns = e.turns := by unfold Env.takeByte; split <;> rfl
@[simp] theorem Env.takeByte_ticks (e : Env) : e.takeByte.2.ticks = e.ticks := by unfold Env.takeByte; split <;> rfl
@[simp] theorem Env.takeByte_stores (e : Env) : e.takeByte.2.stores = e.stores := by unfold Env.takeByte; split <;> rfl

@[simp] theorem Env.takeTick_storage (e : Env) : e.takeTick.2.storage = e.storage := by unfold Env.takeTick; split <;> rfl
@[simp] theorem Env.takeTick_handed (e : Env) : e.takeTick.2.handed = e.handed := by unfold Env.takeTick; split <;> rfl
@[simp] theorem Env.takeTick_turns (e : Env) : e.takeTick.2.turns = e.turns := by unfold Env.takeTick; split <;> rfl
@[simp] theorem Env.takeTick_answers (e : Env) : e.takeTick.2.answers = e.answers := by unfold Env.takeTick; split <;> rfl
@[simp] theorem Env.takeTick_stores (e : Env) : e.takeTick.2.stores = e.stores := by unfold Env.takeTick; split <;> rfl

@[simp] theorem Env.takeStore_clock (e : Env) : e.takeStore.2.clock = e.clock := by unfold Env.takeStore; split <;> rfl
@[simp] theorem Env.takeStore_storage (e : Env) : e.takeStore.2.storage = e.storage := by unfold Env.takeStore; split <;> rfl
@[simp] theorem Env.takeStore_handed (e : Env) : e.takeStore.2.handed = e.handed := by unfold Env.takeStore; split <;> rfl
@[simp] theorem Env.takeStore_turns (e : Env) : e.takeStore.2.turns = e.turns := by unfold Env.takeStore; split <;> rfl
@[simp] theorem Env.takeStore_answers (e : Env) : e.takeStore.2.answers = e.answers := by unfold Env.takeStore; split <;> rfl
@[simp] theorem Env.takeStore_ticks (e : Env) : e.takeStore.2.ticks = e.ticks := by unfold Env.takeStore; split <;> rfl

@[simp] theorem Env.takeTurn_clock (e : Env) : e.takeTurn.2.clock = e.clock := by unfold Env.takeTurn; split <;> rfl
@[simp] theorem Env.takeTurn_storage (e : Env) : e.takeTurn.2.storage = e.storage := by unfold Env.takeTurn; split <;> rfl
@[simp] theorem Env.takeTurn_handed (e : Env) : e.takeTurn.2.handed = e.handed := by unfold Env.takeTurn; split <;> rfl
@[simp] theorem Env.takeTurn_answers (e : Env) : e.takeTurn.2.answers = e.answers := by unfold Env.takeTurn; split <;> rfl
@[simp] theorem Env.takeTurn_ticks (e : Env) : e.takeTurn.2.ticks = e.ticks := by unfold Env.takeTurn; split <;> rfl
@[simp] theorem Env.takeTurn_stores (e : Env) : e.takeTurn.2.stores = e.stores := by unfold Env.takeTurn; split <;> rfl

@[simp] theorem Env.takeBytes_clock (k : Nat) (e : Env) : (Env.takeBytes k e).2.clock = e.clock := by
  induction k generalizing e with
  | zero => rfl
  | succ k ih => simp [Env.takeBytes, ih]

@[simp] theorem Env.takeBytes_storage (k : Nat) (e : Env) : (Env.takeBytes k e).2.storage = e.storage := by
  induction k generalizing e with
  | zero => rfl
  | succ k ih => simp [Env.takeBytes, ih]

@[simp] theorem Env.takeBytes_handed (k : Nat) (e : Env) : (Env.takeBytes k e).2.handed = e.handed := by
  induction k generalizing e with
  | zero => rfl
  | succ k ih => simp [Env.takeBytes, ih]

@[simp] theorem Env.takeBytes_turns (k : Nat) (e : Env) : (Env.takeBytes k e).2.turns = e.turns := by
  induction k generalizing e with
  | zero => rfl
  | succ k ih => simp [Env.takeBytes, ih]

@[simp] theorem Env.takeBytes_ticks (k : Nat) (e : Env) : (Env.takeBytes k e).2.ticks = e.ticks := by
  induction k generalizing e with
  | zero => rfl
  | succ k ih => simp [Env.takeBytes, ih]

@[simp] theorem Env.takeBytes_stores (k : Nat) (e : Env) : (Env.takeBytes k e).2.stores = e.stores := by
  induction k generalizing e with
  | zero => rfl
  | succ k ih => simp [Env.takeBytes, ih]

@[simp] theorem Env.takeBytes_length (k : Nat) (e : Env) : (Env.takeBytes k e).1.length = k := by
  induction k generalizing e with
  | zero => rfl
  | succ k ih => simp [Env.takeBytes, ih]

/-- The clock after a reading is the reading. -/
@[simp] theorem Env.takeTick_clock (e : Env) : e.takeTick.2.clock = e.takeTick.1 := by
  unfold Env.takeTick; split <;> rfl

/-- The clock never decreases (60_exceptions R262). -/
theorem Env.clock_le_takeTick (e : Env) : e.clock ≤ e.takeTick.1 := by
  unfold Env.takeTick; split <;> simp

/-! ### Flags -/

@[simp] theorem State.setMask_params (b : Bool) : (s.setMask b).params = s.params := rfl
@[simp] theorem State.setMask_drv (b : Bool) : (s.setMask b).drv = { s.drv with irqMask := b } := rfl
@[simp] theorem State.setMask_chip (b : Bool) : (s.setMask b).chip = s.chip := rfl
@[simp] theorem State.setMask_env (b : Bool) : (s.setMask b).env = s.env := rfl
@[simp] theorem State.setMask_poll (b : Bool) : (s.setMask b).poll = s.poll := rfl
@[simp] theorem State.setMask_result (b : Bool) : (s.setMask b).result = s.result := rfl
@[simp] theorem State.setMask_program (b : Bool) : (s.setMask b).program = s.program := rfl
@[simp] theorem State.setMask_ctx (b : Bool) : (s.setMask b).ctx = s.ctx := rfl
@[simp] theorem State.setMask_hist (b : Bool) : (s.setMask b).hist = s.hist := rfl

@[simp] theorem State.setEnum_params : (s.setEnum).params = s.params := rfl
@[simp] theorem State.setEnum_drv : (s.setEnum).drv = { s.drv with enum := true } := rfl
@[simp] theorem State.setEnum_chip : (s.setEnum).chip = s.chip := rfl
@[simp] theorem State.setEnum_env : (s.setEnum).env = s.env := rfl
@[simp] theorem State.setEnum_poll : (s.setEnum).poll = s.poll := rfl
@[simp] theorem State.setEnum_result : (s.setEnum).result = s.result := rfl
@[simp] theorem State.setEnum_program : (s.setEnum).program = s.program := rfl
@[simp] theorem State.setEnum_ctx : (s.setEnum).ctx = s.ctx := rfl
@[simp] theorem State.setEnum_hist : (s.setEnum).hist = s.hist := rfl

@[simp] theorem State.enterIrq_params : (s.enterIrq).params = s.params := rfl
@[simp] theorem State.enterIrq_drv : (s.enterIrq).drv = { s.drv with irqPend := false } := rfl
@[simp] theorem State.enterIrq_chip : (s.enterIrq).chip = s.chip := rfl
@[simp] theorem State.enterIrq_env : (s.enterIrq).env = s.env := rfl
@[simp] theorem State.enterIrq_poll : (s.enterIrq).poll = s.poll := rfl
@[simp] theorem State.enterIrq_result : (s.enterIrq).result = s.result := rfl
@[simp] theorem State.enterIrq_program : (s.enterIrq).program = s.program := rfl
@[simp] theorem State.enterIrq_ctx : (s.enterIrq).ctx = s.ctx := rfl
@[simp] theorem State.enterIrq_hist : (s.enterIrq).hist = s.hist := rfl

@[simp] theorem State.latchAbsent_params : s.latchAbsent.params = s.params := by unfold State.latchAbsent; simp only; split <;> rfl
@[simp] theorem State.latchAbsent_chip : s.latchAbsent.chip = s.chip := by unfold State.latchAbsent; simp only; split <;> rfl
@[simp] theorem State.latchAbsent_env : s.latchAbsent.env = s.env := by unfold State.latchAbsent; simp only; split <;> rfl
@[simp] theorem State.latchAbsent_poll : s.latchAbsent.poll = s.poll := by unfold State.latchAbsent; simp only; split <;> rfl
@[simp] theorem State.latchAbsent_result : s.latchAbsent.result = s.result := by unfold State.latchAbsent; simp only; split <;> rfl
@[simp] theorem State.latchAbsent_program : s.latchAbsent.program = s.program := by unfold State.latchAbsent; simp only; split <;> rfl
@[simp] theorem State.latchAbsent_ctx : s.latchAbsent.ctx = s.ctx := by unfold State.latchAbsent; simp only; split <;> rfl
@[simp] theorem State.latchAbsent_drv : s.latchAbsent.drv = { s.drv with absent := true } := by
  unfold State.latchAbsent; simp only; split <;> rfl

theorem State.latchAbsent_hist :
    s.latchAbsent.hist = s.hist ++ if s.drv.absent then [] else [.log .controllerNotPresent] := by
  unfold State.latchAbsent; simp only; split <;> simp_all

end Sys2Proof.Machine
end

