-- ==== Sys2Proof/Laws/Ops.lean ====
section
/-! SUPPORT. The bus transactions, timer and storage operations: what each changes, field by field. -/

namespace Sys2Proof.Machine

variable (s : State)

@[simp] theorem State.transaction_params (w : List Byte) (n : Nat) : (s.transaction w n).2.params = s.params := rfl
@[simp] theorem State.transaction_drv (w : List Byte) (n : Nat) : (s.transaction w n).2.drv = s.drv := rfl
@[simp] theorem State.transaction_chip (w : List Byte) (n : Nat) : (s.transaction w n).2.chip = { s.chip with cs := false } := rfl
@[simp] theorem State.transaction_env (w : List Byte) (n : Nat) : (s.transaction w n).2.env = (Env.takeBytes n s.env).2 := rfl
@[simp] theorem State.transaction_poll (w : List Byte) (n : Nat) : (s.transaction w n).2.poll = s.poll := rfl
@[simp] theorem State.transaction_result (w : List Byte) (n : Nat) : (s.transaction w n).2.result = s.result := rfl
@[simp] theorem State.transaction_program (w : List Byte) (n : Nat) : (s.transaction w n).2.program = s.program := rfl
@[simp] theorem State.transaction_ctx (w : List Byte) (n : Nat) : (s.transaction w n).2.ctx = s.ctx := rfl
@[simp] theorem State.transaction_hist (w : List Byte) (n : Nat) : (s.transaction w n).2.hist = s.hist ++ [.tx w (Env.takeBytes n s.env).1] := rfl

@[simp] theorem State.transaction_read (w : List Byte) (n : Nat) : (s.transaction w n).1 = (Env.takeBytes n s.env).1 := rfl

@[simp] theorem State.regRead_params (a : Byte) : (s.regRead a).2.params = s.params := rfl
@[simp] theorem State.regRead_drv (a : Byte) : (s.regRead a).2.drv = s.drv := rfl
@[simp] theorem State.regRead_chip (a : Byte) : (s.regRead a).2.chip = { s.chip with cs := false } := rfl
@[simp] theorem State.regRead_env (a : Byte) : (s.regRead a).2.env = s.env.takeByte.2 := rfl
@[simp] theorem State.regRead_poll (a : Byte) : (s.regRead a).2.poll = s.poll := rfl
@[simp] theorem State.regRead_result (a : Byte) : (s.regRead a).2.result = s.result := rfl
@[simp] theorem State.regRead_program (a : Byte) : (s.regRead a).2.program = s.program := rfl
@[simp] theorem State.regRead_ctx (a : Byte) : (s.regRead a).2.ctx = s.ctx := rfl
@[simp] theorem State.regRead_hist (a : Byte) : (s.regRead a).2.hist = s.hist ++ [readEvent s.params.chip a s.env.takeByte.1] := rfl

@[simp] theorem State.regRead_value (a : Byte) : (s.regRead a).1 = s.env.takeByte.1 := rfl

@[simp] theorem State.regWrite_params (a v : Byte) : (s.regWrite a v).params = s.params := rfl
@[simp] theorem State.regWrite_drv (a v : Byte) : (s.regWrite a v).drv = s.drv := rfl
@[simp] theorem State.regWrite_chip (a v : Byte) : (s.regWrite a v).chip = ⟨false, Memory.write s.chip.regs a.toNat v, s.chip.txBuf⟩ := rfl
@[simp] theorem State.regWrite_env (a v : Byte) : (s.regWrite a v).env = s.env := rfl
@[simp] theorem State.regWrite_poll (a v : Byte) : (s.regWrite a v).poll = s.poll := rfl
@[simp] theorem State.regWrite_result (a v : Byte) : (s.regWrite a v).result = s.result := rfl
@[simp] theorem State.regWrite_program (a v : Byte) : (s.regWrite a v).program = s.program := rfl
@[simp] theorem State.regWrite_ctx (a v : Byte) : (s.regWrite a v).ctx = s.ctx := rfl
@[simp] theorem State.regWrite_hist (a v : Byte) : (s.regWrite a v).hist = s.hist ++ [writeEvent s.params.chip a v] := rfl

@[simp] theorem State.chipReset_params : s.chipReset.params = s.params := rfl
@[simp] theorem State.chipReset_drv : s.chipReset.drv = s.drv := rfl
@[simp] theorem State.chipReset_chip : s.chipReset.chip = ⟨false, [], []⟩ := rfl
@[simp] theorem State.chipReset_env : s.chipReset.env = s.env := rfl
@[simp] theorem State.chipReset_poll : s.chipReset.poll = s.poll := rfl
@[simp] theorem State.chipReset_result : s.chipReset.result = s.result := rfl
@[simp] theorem State.chipReset_program : s.chipReset.program = s.program := rfl
@[simp] theorem State.chipReset_ctx : s.chipReset.ctx = s.ctx := rfl
@[simp] theorem State.chipReset_hist : s.chipReset.hist = s.hist ++ [.tx [s.params.chip.cmdReset] []] := rfl

@[simp] theorem State.rxRead_params : s.rxRead.2.params = s.params := rfl
@[simp] theorem State.rxRead_drv : s.rxRead.2.drv = s.drv := rfl
@[simp] theorem State.rxRead_chip : s.rxRead.2.chip = { s.chip with cs := false } := rfl
@[simp] theorem State.rxRead_env : s.rxRead.2.env = (Env.takeBytes Config.recBytes s.env).2 := rfl
@[simp] theorem State.rxRead_poll : s.rxRead.2.poll = s.poll := rfl
@[simp] theorem State.rxRead_result : s.rxRead.2.result = s.result := rfl
@[simp] theorem State.rxRead_program : s.rxRead.2.program = s.program := rfl
@[simp] theorem State.rxRead_ctx : s.rxRead.2.ctx = s.ctx := rfl
@[simp] theorem State.rxRead_hist : s.rxRead.2.hist = s.hist ++ [.tx [s.params.chip.cmdRxRead] s.rxRead.1] := rfl

theorem State.rxRead_length : s.rxRead.1.length = Config.recBytes := Env.takeBytes_length _ _

@[simp] theorem State.txLoad_params (t : List Byte) : (s.txLoad t).params = s.params := rfl
@[simp] theorem State.txLoad_drv (t : List Byte) : (s.txLoad t).drv = s.drv := rfl
@[simp] theorem State.txLoad_chip (t : List Byte) : (s.txLoad t).chip = ⟨false, s.chip.regs, Memory.writeAll s.chip.txBuf 0 t⟩ := rfl
@[simp] theorem State.txLoad_env (t : List Byte) : (s.txLoad t).env = s.env := rfl
@[simp] theorem State.txLoad_poll (t : List Byte) : (s.txLoad t).poll = s.poll := rfl
@[simp] theorem State.txLoad_result (t : List Byte) : (s.txLoad t).result = s.result := rfl
@[simp] theorem State.txLoad_program (t : List Byte) : (s.txLoad t).program = s.program := rfl
@[simp] theorem State.txLoad_ctx (t : List Byte) : (s.txLoad t).ctx = s.ctx := rfl
@[simp] theorem State.txLoad_hist (t : List Byte) : (s.txLoad t).hist = s.hist ++ [loadEvent s.params.chip t] := rfl

@[simp] theorem State.txRequest_params (p : Prio) : (s.txRequest p).params = s.params := rfl
@[simp] theorem State.txRequest_drv (p : Prio) : (s.txRequest p).drv = s.drv := rfl
@[simp] theorem State.txRequest_chip (p : Prio) : (s.txRequest p).chip = ⟨false, Memory.write s.chip.regs s.params.chip.regTxctrl.toNat (s.params.chip.txctrlReq p), s.chip.txBuf⟩ := rfl
@[simp] theorem State.txRequest_env (p : Prio) : (s.txRequest p).env = s.env := rfl
@[simp] theorem State.txRequest_poll (p : Prio) : (s.txRequest p).poll = s.poll := rfl
@[simp] theorem State.txRequest_result (p : Prio) : (s.txRequest p).result = s.result := rfl
@[simp] theorem State.txRequest_program (p : Prio) : (s.txRequest p).program = s.program := rfl
@[simp] theorem State.txRequest_ctx (p : Prio) : (s.txRequest p).ctx = s.ctx := rfl
@[simp] theorem State.txRequest_hist (p : Prio) : (s.txRequest p).hist = s.hist ++ [requestEvent s.params.chip p] := rfl

@[simp] theorem State.txAbort_params : s.txAbort.params = s.params := rfl
@[simp] theorem State.txAbort_drv : s.txAbort.drv = s.drv := rfl
@[simp] theorem State.txAbort_chip : s.txAbort.chip = ⟨false, Memory.write s.chip.regs s.params.chip.regTxctrl.toNat s.params.chip.txctrlAbort, s.chip.txBuf⟩ := rfl
@[simp] theorem State.txAbort_env : s.txAbort.env = s.env := rfl
@[simp] theorem State.txAbort_poll : s.txAbort.poll = s.poll := rfl
@[simp] theorem State.txAbort_result : s.txAbort.result = s.result := rfl
@[simp] theorem State.txAbort_program : s.txAbort.program = s.program := rfl
@[simp] theorem State.txAbort_ctx : s.txAbort.ctx = s.ctx := rfl
@[simp] theorem State.txAbort_hist : s.txAbort.hist = s.hist ++ [abortEvent s.params.chip] := rfl

@[simp] theorem State.txFire_params (t : List Byte) : (s.txFire t).params = s.params := by unfold State.txFire; split <;> rfl
@[simp] theorem State.txFire_drv (t : List Byte) : (s.txFire t).drv = s.drv := by unfold State.txFire; split <;> rfl
@[simp] theorem State.txFire_env (t : List Byte) : (s.txFire t).env = s.env := by unfold State.txFire; split <;> rfl
@[simp] theorem State.txFire_poll (t : List Byte) : (s.txFire t).poll = s.poll := by unfold State.txFire; split <;> rfl
@[simp] theorem State.txFire_result (t : List Byte) : (s.txFire t).result = s.result := by unfold State.txFire; split <;> rfl
@[simp] theorem State.txFire_program (t : List Byte) : (s.txFire t).program = s.program := by unfold State.txFire; split <;> rfl
@[simp] theorem State.txFire_ctx (t : List Byte) : (s.txFire t).ctx = s.ctx := by unfold State.txFire; split <;> rfl

/-- An absent controller is not touched (43_send R192). -/
theorem State.txFire_absent (t : List Byte) (h : s.drv.absent = true) : s.txFire t = s := by simp [State.txFire, h]

/-- TX_FIRE is one load and one request (43_send R192). -/
theorem State.txFire_present (t : List Byte) (h : s.drv.absent = false) :
    s.txFire t = (s.txLoad t).txRequest .high := by simp [State.txFire, h]

theorem State.txFire_hist (t : List Byte) : (s.txFire t).hist =
    s.hist ++ if s.drv.absent then [] else [loadEvent s.params.chip t, requestEvent s.params.chip .high] := by
  unfold State.txFire; split <;> simp_all

@[simp] theorem State.timerArm_params (d : Nat) : (s.timerArm d).params = s.params := rfl
@[simp] theorem State.timerArm_drv (d : Nat) : (s.timerArm d).drv = { s.drv with timerArmed := true, timerDeadline := s.env.takeTick.1 + d } := rfl
@[simp] theorem State.timerArm_chip (d : Nat) : (s.timerArm d).chip = s.chip := rfl
@[simp] theorem State.timerArm_env (d : Nat) : (s.timerArm d).env = s.env.takeTick.2 := rfl
@[simp] theorem State.timerArm_poll (d : Nat) : (s.timerArm d).poll = s.poll := rfl
@[simp] theorem State.timerArm_result (d : Nat) : (s.timerArm d).result = s.result := rfl
@[simp] theorem State.timerArm_program (d : Nat) : (s.timerArm d).program = s.program := rfl
@[simp] theorem State.timerArm_ctx (d : Nat) : (s.timerArm d).ctx = s.ctx := rfl
@[simp] theorem State.timerArm_hist (d : Nat) : (s.timerArm d).hist = s.hist := rfl

@[simp] theorem State.persistSelfId_params (p : IdPair) : (s.persistSelfId p).params = s.params := rfl
@[simp] theorem State.persistSelfId_drv (p : IdPair) : (s.persistSelfId p).drv = s.drv := rfl
@[simp] theorem State.persistSelfId_chip (p : IdPair) : (s.persistSelfId p).chip = s.chip := rfl
@[simp] theorem State.persistSelfId_env (p : IdPair) : (s.persistSelfId p).env = { s.env with handed := s.env.handed ++ [p] } := rfl
@[simp] theorem State.persistSelfId_poll (p : IdPair) : (s.persistSelfId p).poll = s.poll := rfl
@[simp] theorem State.persistSelfId_result (p : IdPair) : (s.persistSelfId p).result = s.result := rfl
@[simp] theorem State.persistSelfId_program (p : IdPair) : (s.persistSelfId p).program = s.program := rfl
@[simp] theorem State.persistSelfId_ctx (p : IdPair) : (s.persistSelfId p).ctx = s.ctx := rfl
@[simp] theorem State.persistSelfId_hist (p : IdPair) : (s.persistSelfId p).hist = s.hist ++ [.persist p] := rfl

@[simp] theorem State.loadSelfId_params : s.loadSelfId.2.params = s.params := rfl
@[simp] theorem State.loadSelfId_drv : s.loadSelfId.2.drv = s.drv := rfl
@[simp] theorem State.loadSelfId_chip : s.loadSelfId.2.chip = s.chip := rfl
@[simp] theorem State.loadSelfId_env : s.loadSelfId.2.env = s.env.takeStore.2 := rfl
@[simp] theorem State.loadSelfId_poll : s.loadSelfId.2.poll = s.poll := rfl
@[simp] theorem State.loadSelfId_result : s.loadSelfId.2.result = s.result := rfl
@[simp] theorem State.loadSelfId_program : s.loadSelfId.2.program = s.program := rfl
@[simp] theorem State.loadSelfId_ctx : s.loadSelfId.2.ctx = s.ctx := rfl
@[simp] theorem State.loadSelfId_hist : s.loadSelfId.2.hist = s.hist := rfl

@[simp] theorem State.now_value : s.now.1 = s.env.takeTick.1 := rfl

@[simp] theorem State.loadSelfId_value :
    s.loadSelfId.1 = if s.env.takeStore.1 then s.env.storage else none := rfl

@[simp] theorem State.takeTurn_value : s.takeTurn.1 = s.env.takeTurn.1 := rfl

/-! ### Durable storage settles -/

@[simp] theorem State.settleStore_params : s.settleStore.params = s.params := by unfold State.settleStore; split <;> rfl
@[simp] theorem State.settleStore_drv : s.settleStore.drv = s.drv := by unfold State.settleStore; split <;> rfl
@[simp] theorem State.settleStore_chip : s.settleStore.chip = s.chip := by unfold State.settleStore; split <;> rfl
@[simp] theorem State.settleStore_poll : s.settleStore.poll = s.poll := by unfold State.settleStore; split <;> rfl
@[simp] theorem State.settleStore_result : s.settleStore.result = s.result := by unfold State.settleStore; split <;> rfl
@[simp] theorem State.settleStore_program : s.settleStore.program = s.program := by unfold State.settleStore; split <;> rfl
@[simp] theorem State.settleStore_ctx : s.settleStore.ctx = s.ctx := by unfold State.settleStore; split <;> rfl
@[simp] theorem State.settleStore_hist : s.settleStore.hist = s.hist := by unfold State.settleStore; split <;> rfl
@[simp] theorem State.settleStore_clock : s.settleStore.env.clock = s.env.clock := by
  unfold State.settleStore; split <;> simp

/-- Nothing is handed over, or the oldest pair handed over is stored or lost (20_memory R80). -/
theorem State.settleStore_cases :
    (s.env.handed = [] ∧ s.settleStore = s)
    ∨ ∃ p rest, s.env.handed = p :: rest ∧ s.settleStore.env.handed = rest
        ∧ (s.settleStore.env.storage = some p ∨ s.settleStore.env.storage = s.env.storage) := by
  unfold State.settleStore
  split
  · exact .inl ⟨‹_›, rfl⟩
  · rename_i p rest h
    refine .inr ⟨p, rest, h, rfl, ?_⟩
    rcases Bool.eq_false_or_eq_true s.env.takeStore.1 with hs | hs <;> simp [hs]

/-- INITIALIZE's `Err` undoes nothing (60_exceptions R240). -/
@[simp] theorem State.raiseInit_drv : s.raiseInit.drv = s.drv := rfl

/-- After INITIALIZE's `Err` `cfg` is unset, as at power-on (10_state R53). -/
theorem State.raiseInit_cfg (h : s.drv.mode = .uninit) : s.raiseInit.cfg = none :=
  State.cfg_unset _ h rfl

/-! ### Guards: what a guarded operation that goes on has met -/

theorem State.whenIn_next {c : Context} {k : Out} {t : State} (h : s.whenIn c k = .next t) : s.ctx = c ∧ k = .next t := by
  unfold State.whenIn at h
  split at h
  · exact ⟨‹_›, h⟩
  · cases h

theorem State.whenIdle_next {k : Out} {t : State} (h : s.whenIdle k = .next t) :
    s.ctx = .poll ∧ s.poll = .idle ∧ k = .next t := by
  obtain ⟨hc, h⟩ := s.whenIn_next h
  split at h
  · exact ⟨hc, ‹_›, h⟩
  · cases h

theorem State.whenReady_next {k : Out} {t : State} (h : s.whenReady k = .next t) :
    s.drv.mode = .ready ∧ k = .next t := by
  unfold State.whenReady at h
  split at h
  · exact ⟨‹_›, h⟩
  · cases h

theorem State.whenCalled_next {i : Instr} {k : Out} {t : State} (h : s.whenCalled i k = .next t) :
    s.calls i = true ∧ k = .next t := by
  unfold State.whenCalled at h
  split at h
  · exact ⟨‹_›, h⟩
  · cases h

end Sys2Proof.Machine
end

