-- ==== Sys2Proof/Laws/PerInstr.lean ====
section
/-! SUPPORT. Per-instruction facts about the syntax: every operation's encoding starts with its key byte (30_encoding R108, R91,
R113; the model's own keys are log 2's). -/

namespace Sys2Proof.Laws.EncodeHead

open Sys2Proof

/-- The first byte of an operation's encoding is its key. -/
def Statement (i : Instr) : Prop := (Sys2Proof.encode i).head? = some (keyByte i)

theorem encode (ext : Bool) (id : BitVec 32) (opcode : Byte) (payload : List Byte) : Statement (Instr.encode ext id opcode payload) := rfl
theorem decode (w : WireString) : Statement (.decode w) := rfl
theorem initDriver (busHandle chipSelect interruptLine : BitVec 32) (oscillatorHz : Nat) : Statement (.initDriver busHandle chipSelect interruptLine oscillatorHz) := rfl
theorem send (w : WireString) : Statement (.send w) := rfl
theorem receive : Statement (.receive) := rfl
theorem available : Statement (.available) := rfl
theorem irqHandler : Statement (.irqHandler) := rfl
theorem runEnumeration : Statement (.runEnumeration) := rfl
theorem txFire (t : List Byte) : Statement (.txFire t) := rfl
theorem wireSN (idfield : BitVec 16) (data : List Byte) : Statement (.wireSN idfield data) := rfl
theorem wireSR (idfield : BitVec 16) (data : List Byte) : Statement (.wireSR idfield data) := rfl
theorem wireXN (idfield : BitVec 32) (data : List Byte) : Statement (.wireXN idfield data) := rfl
theorem wireXR (idfield : BitVec 32) (data : List Byte) : Statement (.wireXR idfield data) := rfl
theorem ownId : Statement (.ownId) := rfl
theorem collisionRtr : Statement (.collisionRtr) := rfl
theorem regRead (a : Byte) : Statement (.regRead a) := rfl
theorem regWrite (a v : Byte) : Statement (.regWrite a v) := rfl
theorem chipReset : Statement (.chipReset) := rfl
theorem rxRead : Statement (.rxRead) := rfl
theorem txLoad (t : List Byte) : Statement (.txLoad t) := rfl
theorem txRequest (p : Prio) : Statement (.txRequest p) := by cases p <;> rfl
theorem txAbort : Statement (.txAbort) := rfl
theorem modeSet : Statement (.modeSet) := rfl
theorem opc0D (payload : List Byte) : Statement (.opc0D payload) := rfl
theorem opc10 (payload : List Byte) : Statement (.opc10 payload) := rfl
theorem opc42 (payload : List Byte) : Statement (.opc42 payload) := rfl
theorem opc50 (payload : List Byte) : Statement (.opc50 payload) := rfl
theorem opc52 (payload : List Byte) : Statement (.opc52 payload) := rfl
theorem opc53 (payload : List Byte) : Statement (.opc53 payload) := rfl
theorem opc54 (payload : List Byte) : Statement (.opc54 payload) := rfl
theorem opc57 (payload : List Byte) : Statement (.opc57 payload) := rfl
theorem opc58 (payload : List Byte) : Statement (.opc58 payload) := rfl
theorem opc71 (payload : List Byte) : Statement (.opc71 payload) := rfl
theorem opc73 (payload : List Byte) : Statement (.opc73 payload) := rfl
theorem opc90 (payload : List Byte) : Statement (.opc90 payload) := rfl
theorem opc91 (payload : List Byte) : Statement (.opc91 payload) := rfl
theorem opc95 (payload : List Byte) : Statement (.opc95 payload) := rfl
theorem opc96 (payload : List Byte) : Statement (.opc96 payload) := rfl
theorem opc98 (payload : List Byte) : Statement (.opc98 payload) := rfl
theorem opc99 (payload : List Byte) : Statement (.opc99 payload) := rfl
theorem opc9C (payload : List Byte) : Statement (.opc9C payload) := rfl
theorem opcD2 (payload : List Byte) : Statement (.opcD2 payload) := rfl

end Sys2Proof.Laws.EncodeHead
end

