-- ==== Sys2Proof/Laws/Profile.lean ====
section
/-! SUPPORT. The byte functions of a profile (10_state R40) are all functions there are: of a fixed number of bytes, and of
`mk_txrec`'s arguments. -/

namespace Sys2Proof.Machine

/-- A choice by the input's byte at an index, among the bytes of a list. -/
theorem ByteFn.select_mem (g : Byte → ByteFn) (i : Nat) (bs : List Byte) :
    ∃ e : ByteFn, ∀ r, byteAt r i ∈ bs → evalByte r e = evalByte r (g (byteAt r i)) := by
  induction bs with
  | nil => exact ⟨.lit 0, fun r h => by cases h⟩
  | cons b bs ih =>
    obtain ⟨e, he⟩ := ih
    refine ⟨.ite (.xor (.input i) (.lit b)) e (g b), fun r h => ?_⟩
    by_cases hb : byteAt r i = b
    · simp [evalByte, hb]
    · have hx : byteAt r i ^^^ b ≠ 0 := fun hx => hb (BitVec.xor_eq_zero_iff.1 hx)
      exact (if_neg hx).trans (he r ((List.mem_cons.1 h).resolve_left hb))

/-- A choice by the input's byte at an index. -/
theorem ByteFn.select (g : Byte → ByteFn) (i : Nat) :
    ∃ e : ByteFn, ∀ r, evalByte r e = evalByte r (g (byteAt r i)) := by
  obtain ⟨e, he⟩ := ByteFn.select_mem g i ((List.range 256).map (BitVec.ofNat 8))
  refine ⟨e, fun r => he r (List.mem_map.2 ⟨(byteAt r i).toNat, List.mem_range.2 (byteAt r i).isLt, ?_⟩)⟩
  simp

/-- Every function of the first `n` bytes is a byte function, so every accessor of a record of `REC_BYTES` bytes is one. -/
theorem ByteFn.complete (n : Nat) (f : List Byte → Byte) :
    ∃ e : ByteFn, ∀ r, evalByte r e = f ((List.range n).map (byteAt r)) := by
  induction n generalizing f with
  | zero => exact ⟨.lit (f []), fun _ => rfl⟩
  | succ n ih =>
    choose g hg using fun b : Byte => ih fun l => f (l ++ [b])
    obtain ⟨e, he⟩ := ByteFn.select g n
    exact ⟨e, fun r => by rw [he, hg, List.range_succ, List.map_append]; rfl⟩

/-- A record of `n` bytes is its first `n` bytes. -/
theorem range_map_byteAt (r : List Byte) : (List.range r.length).map (byteAt r) = r := by
  apply List.ext_getElem
  · simp
  · intro i h1 h2
    simp [byteAt, h2]

/-- Every accessor of a receive record that answers a byte is a byte function. -/
theorem ByteFn.complete_record (f : List Byte → Byte) :
    ∃ e : ByteFn, ∀ r, r.length = Config.recBytes → evalByte r e = f r := by
  obtain ⟨e, he⟩ := ByteFn.complete Config.recBytes f
  exact ⟨e, fun r h => by rw [he, ← h, range_map_byteAt]⟩

/-- Every byte of `mk_txrec` is a byte function of its arguments (a standard field's reserved bits cleared). -/
theorem ByteFn.complete_transmit (f : Bool → BitVec 32 → Bool → List Byte → Byte) :
    ∃ e : ByteFn, ∀ ext x rtr data, data.length ≤ 8 →
      evalByte (txInputs ext x rtr data) e = f ext (if ext then x else x &&& 0xFFE0) rtr data := by
  obtain ⟨e, he⟩ := ByteFn.complete 15 fun l =>
    f (byteAt l 0 != 0) (word4 (byteAt l 2) (byteAt l 3) (byteAt l 4) (byteAt l 5)) (byteAt l 1 != 0)
      ((l.drop 7).take (byteAt l 6).toNat)
  refine ⟨e, fun ext x rtr data h => ?_⟩
  have hw (y : BitVec 32) : word4 (y.extractLsb' 24 8) (y.extractLsb' 16 8) (y.extractLsb' 8 8) (y.extractLsb' 0 8) = y := by
    apply BitVec.eq_of_getLsbD_eq
    intro i hi
    simp only [word4, BitVec.getLsbD_append, BitVec.getLsbD_extractLsb']
    have hi32 : i < 32 := hi
    interval_cases i <;> simp
  have hl : data.length % 256 = data.length := Nat.mod_eq_of_lt (by omega)
  have hd : ((List.range 8).map fun i => data.getD i 0).take data.length = data := by
    apply List.ext_getElem
    · simp; omega
    · intro i h1 h2
      simp [h2]
  rw [he]
  have hr : (List.range 15).map (byteAt (txInputs ext x rtr data)) =
      (if ext then 1 else 0) :: (if rtr then 1 else 0)
        :: (bytes4 (if ext then x else x &&& 0xFFE0) ++ BitVec.ofNat 8 data.length
          :: (List.range 8).map fun i => data.getD i 0) := by
    simp [List.range_succ, txInputs, bytes4, byteAt]
  rw [hr]
  simp only [byteAt, bytes4, List.getD_cons_zero, List.getD_cons_succ, List.cons_append, List.nil_append, List.drop_succ_cons,
    List.drop_zero, BitVec.toNat_ofNat, hw]
  rw [show data.length % 2 ^ 8 = data.length from hl, hd]
  cases ext <;> cases rtr <;> rfl

end Sys2Proof.Machine
end

