-- ==== Sys2Proof/Laws/Receive.lean ====
section
/-! SUPPORT. The receive path and the timer callback: what a handler run, an enqueue and an enumeration can do. -/

namespace Sys2Proof.Machine

/-- A handler run that takes place was in its context and deliverable and is the handler's body. -/
theorem exec_irq_next {s t : State} (h : exec .irqHandler s = .next t) :
    s.ctx = .irq ∧ s.deliverable = true ∧ irqBody s.enterIrq = .next t := by
  obtain ⟨hc, h⟩ := s.whenIn_next h
  obtain ⟨_, h⟩ := s.whenReady_next h
  split at h
  · exact ⟨hc, ‹_›, h⟩
  · cases h

/-- A deliverable handler in its context runs its body. -/
theorem exec_irq (s : State) (hc : s.ctx = .irq) (h : s.deliverable = true) : exec .irqHandler s = irqBody s.enterIrq := by
  have hm : s.drv.mode = .ready := by simp [State.deliverable] at h; exact h.1.1.1
  simp [exec, execIrqHandler, State.whenIn, State.whenReady, hc, hm, h]

/-- Everything the handler's body can do: case A, case B, cases C and D, case C. -/
theorem irqBody_cases {s t : State} (h : irqBody s = .next t) :
    let r := s.rxRead.1
    let u := s.rxRead.2
    (caseA u r = true ∧ t = (u.txFire (ownIdRec u.params.chip u.drv.selfId)).leave)
    ∨ (caseA u r = false ∧ caseB u r = true ∧ t = (u.pushSeen (recId u.params.chip r)).leave)
    ∨ (caseA u r = false ∧ caseB u r = false ∧ s.drv.wr < s.drv.slots ∧
        ((idMatch s.params.chip s.drv.selfId r = true ∧ t = (u.enqueue r).collide.leave)
          ∨ (idMatch s.params.chip s.drv.selfId r = false ∧ t = (u.enqueue r).leave))) := by
  simp only [irqBody] at h
  split at h
  · cases h; exact .inl ⟨‹_›, rfl⟩
  · split at h
    · cases h; exact .inr (.inl ⟨by simpa using ‹¬ caseA _ _ = true›, ‹_›, rfl⟩)
    · split at h
      · refine .inr (.inr ⟨by simpa using ‹¬ caseA _ _ = true›, by simpa using ‹¬ caseB _ _ = true›, ‹_›, ?_⟩)
        split at h
        · cases h; exact .inl ⟨‹_›, rfl⟩
        · cases h; exact .inr ⟨by simpa using ‹¬ idMatch _ _ _ = true›, rfl⟩
      · cases h

/-- After an enqueue the slot holds the record, byte for byte. -/
theorem State.enqueue_holds (s : State) (r : List Byte) (h : r.length = Config.recBytes) :
    SlotHolds (s.enqueue r) s.drv.wr r := by
  intro i hi
  simp only [State.enqueue, State.setDrv_drv, slotAddr]
  rw [Memory.read_writeAll, if_pos (by omega)]
  simp [byteAt]

/-- An enqueue leaves every ring byte outside its slot alone. -/
theorem State.enqueue_outside (s : State) (r : List Byte) (h : r.length = Config.recBytes) :
    RingOutside s (s.enqueue r) s.drv.wr := by
  intro a ha
  simp only [State.enqueue, State.setDrv_drv, slotAddr] at ha ⊢
  rw [Memory.read_writeAll, if_neg (by omega)]

/-- Distinct slots have distinct addresses. -/
theorem slotAddr_disjoint {j k i : Nat} (hi : i < Config.recBytes) (hjk : j ≠ k) :
    ¬ (slotAddr k 0 ≤ slotAddr j i ∧ slotAddr j i < slotAddr k 0 + Config.recBytes) := by
  simp only [slotAddr, Config.recBytes] at *
  omega

/-- The first candidate that is not among the ids seen is found. -/
theorem firstFree_some (seen : List IdPair) (a : Nat) (h1 : 1 ≤ a) (h2 : a ≤ 127) (h3 : idOf a ∉ seen)
    (h4 : ∀ b, 1 ≤ b → b < a → idOf b ∈ seen) : firstFree seen = some (idOf a) := by
  unfold firstFree candidates
  rw [List.find?_map, Option.map_eq_some_iff]
  refine ⟨a, ?_, rfl⟩
  rw [List.find?_eq_some_iff_append]
  refine ⟨by simpa using h3, List.range' 1 (a - 1), List.range' (a + 1) (127 - a), ?_, ?_⟩
  · rw [show a :: List.range' (a + 1) (127 - a) = List.range' a (127 - a + 1) by simp [List.range'_succ]]
    have := List.range'_append_1 (s := 1) (m := a - 1) (n := 127 - a + 1)
    rw [show 1 + (a - 1) = a by omega] at this
    rw [this]
    congr 1
    simp [Config.enumFirst, Config.enumLast]
    omega
  · intro b hb
    simp at hb
    simpa using h4 b (by omega) (by omega)

/-- With every candidate among the ids seen none is found. -/
theorem firstFree_none (seen : List IdPair) (h : ∀ b, 1 ≤ b → b ≤ 127 → idOf b ∈ seen) : firstFree seen = none := by
  unfold firstFree candidates
  rw [List.find?_eq_none]
  intro x hx
  simp [Config.enumFirst, Config.enumLast] at hx
  obtain ⟨a, ha, rfl⟩ := hx
  simpa using h a (by omega) (by omega)

/-- A candidate carries no flag bits. -/
theorem idOf_clean (a : Nat) : (idOf a).clean = true := by
  have h : ∀ k < 8, (BitVec.ofNat 8 (k * 32) &&& (0x1F : Byte) == 0) = true := by decide
  exact h (a % 8) (Nat.mod_lt _ (by omega))

/-- A found candidate carries no flag bits. -/
theorem firstFree_clean {seen : List IdPair} {p : IdPair} (h : firstFree seen = some p) : p.clean = true := by
  have := List.mem_of_find?_eq_some h
  simp only [candidates, List.mem_map] at this
  obtain ⟨a, -, rfl⟩ := this
  exact idOf_clean a

/-- A record's id pair carries no flag bits. -/
theorem recId_clean (c : Chip) (r : List Byte) : (recId c r).clean = true := by
  have : ∀ y : Byte, (y &&& 0xE0 &&& 0x1F == 0) = true := by decide
  exact this _

/-- What every run of the handler's body leaves: the block's fixed elements, POLL's, the parameters and the storage as before; the
enumeration flag and the timer set together or left alone; the index advanced or not; at most one id more; canonical memories; the
clock no earlier; one more piece of history. -/
structure HandlerFrame (s t : State) : Prop where
  params : t.params = s.params
  poll : t.poll = s.poll
  result : t.result = s.result
  program : t.program = s.program
  ctx : t.ctx = .poll
  storage : t.env.storage = s.env.storage
  handed : t.env.handed = s.env.handed
  drv : t.drv = { s.drv with
    ring := t.drv.ring, wr := t.drv.wr, seen := t.drv.seen, enum := t.drv.enum
    timerArmed := t.drv.timerArmed, timerDeadline := t.drv.timerDeadline }
  window : t.drv.enum = s.drv.enum ∧ t.drv.timerArmed = s.drv.timerArmed ∨ t.drv.enum = true ∧ t.drv.timerArmed = true
  wr : t.drv.wr = s.drv.wr ∨ t.drv.wr = (s.drv.wr + 1) % s.params.n
  seen : t.drv.seen = s.drv.seen ∨ s.drv.seen.length < s.params.seenCap ∧ ∃ r, t.drv.seen = s.drv.seen ++ [recId s.params.chip r]
  ring : Memory.wf s.drv.ring = true → Memory.wf t.drv.ring = true
  regs : Memory.wf s.chip.regs = true → Memory.wf t.chip.regs = true
  txBuf : Memory.wf s.chip.txBuf = true → Memory.wf t.chip.txBuf = true
  clock : s.env.clock ≤ t.env.clock
  cs : s.chip.cs = false → t.chip.cs = false
  hist : ∃ evs, t.hist = s.hist ++ evs

/-- Everything the handler's body leaves alone. -/
theorem irqBody_frame {s t : State} (h : irqBody s = .next t) : HandlerFrame s t := by
  have hc := Env.clock_le_takeTick (Env.takeBytes Config.recBytes s.env).2
  simp only [Env.takeBytes_clock] at hc
  rcases irqBody_cases h with ⟨_, rfl⟩ | ⟨_, _, rfl⟩ | ⟨_, _, _, ⟨_, rfl⟩ | ⟨_, rfl⟩⟩
  · constructor <;> (try simp) <;> (unfold State.txFire; split <;> simp +contextual [Memory.wf_write, Memory.wf_writeAll])
  · unfold State.pushSeen
    split
    · rename_i hs
      constructor <;> (try simp)
      simpa using hs
    · constructor <;> simp
  · constructor <;> (try simp +contextual [State.collide, State.enqueue, Memory.wf_writeAll, advance, hc]) <;>
      (unfold State.txFire; split <;> simp +contextual [Memory.wf_write, Memory.wf_writeAll])
  · constructor <;> simp +contextual [State.enqueue, Memory.wf_writeAll, advance]

/-- Everything the timer's firing does: enumeration over, the list empty, the timer disarmed; the identifier as before and nothing
handed to storage, or a clean identifier adopted and handed over. -/
structure FireFrame (s t : State) : Prop where
  params : t.params = s.params
  poll : t.poll = s.poll
  result : t.result = s.result
  program : t.program = s.program
  ctx : t.ctx = .poll
  chip : t.chip = s.chip
  env : t.env = { s.env with handed := t.env.handed }
  drv : t.drv = { s.drv with selfId := t.drv.selfId, seen := [], enum := false, timerArmed := false }
  adopted : t.drv.selfId = s.drv.selfId ∧ t.env.handed = s.env.handed ∧ t.hist = s.hist
    ∨ t.drv.selfId.clean = true ∧ t.env.handed = s.env.handed ++ [t.drv.selfId] ∧ t.hist = s.hist ++ [.persist t.drv.selfId]

/-- Everything the timer's firing leaves alone. -/
theorem timerFire_frame (s : State) : FireFrame s (timerFire s) := by
  unfold timerFire enumerationBody
  simp only []
  cases hf : firstFree _ with
  | none => constructor <;> simp [State.adopt]
  | some p =>
    have hp := firstFree_clean hf
    constructor <;> (try simp [State.adopt])
    exact hp

end Sys2Proof.Machine
end

