-- ==== Sys2Proof/Laws/Step.lean ====
section
/-! SUPPORT. What one step can do: the turn that is taken, and what an issued operation can change. -/

namespace Sys2Proof.Machine

/-- Everything the turn of the running code can do. -/
theorem runTurn_next {s t : State} (h : runTurn s = .next t) :
    (¬ (s.ctx = .poll ∧ s.poll ≠ .idle) ∧ t = s)
    ∨ (¬ (s.ctx = .poll ∧ s.poll ≠ .idle) ∧ ∃ i rest, decode s.program = .ok (i, rest) ∧ exec i (s.setProgram rest) = .next t)
    ∨ (s.ctx = .poll ∧ s.poll ≠ .idle ∧ pollContinue s = .next t) := by
  unfold runTurn at h
  split at h
  · rename_i hp
    exact .inr (.inr ⟨hp.1, hp.2, h⟩)
  · rename_i hp
    unfold fetchNext at h
    split at h
    · cases h; exact .inl ⟨hp, rfl⟩
    · cases h
    · rename_i i u hf
      split at hf
      · cases hf
      · split at hf
        · cases hf
        · rename_i hd
          cases hf
          exact .inr (.inl ⟨hp, _, _, hd, h⟩)

/-- Everything a step can do, by the agent that moves. -/
theorem step_next {s t : State} (h : step s = .next t) :
    let u := s.takeTurn.2
    (s.takeTurn.1 = .run ∧ runTurn u = .next t)
    ∨ (s.takeTurn.1 = .irq ∧ (s.ctx = .poll ∧ exec .irqHandler (u.enter .irq) = .next t ∨ t = u))
    ∨ (s.takeTurn.1 = .timer ∧ (s.ctx = .poll ∧ exec .runEnumeration (u.enter .timer) = .next t ∨ t = u.now.2))
    ∨ (s.takeTurn.1 = .edge ∧ t = u.fallingEdge)
    ∨ (s.takeTurn.1 = .settle ∧ t = u.settleStore)
    ∨ (s.takeTurn.1 = .restart ∧ t = u.restart) := by
  unfold step takeMove at h
  split at h
  · exact .inl ⟨‹_›, h⟩
  · refine .inr (.inl ⟨‹_›, ?_⟩)
    unfold irqTurn at h
    split at h
    · rename_i hc; exact .inl ⟨hc.1, h⟩
    · cases h; exact .inr rfl
  · refine .inr (.inr (.inl ⟨‹_›, ?_⟩))
    unfold timerTurn at h
    split at h
    · rename_i hc; exact .inl ⟨hc.1, h⟩
    · cases h; exact .inr rfl
  · cases h; exact .inr (.inr (.inr (.inl ⟨‹_›, rfl⟩)))
  · cases h; exact .inr (.inr (.inr (.inr (.inl ⟨‹_›, rfl⟩))))
  · cases h; exact .inr (.inr (.inr (.inr (.inr ⟨‹_›, rfl⟩))))

/-- A timer callback that takes place was in its context and due and is the firing. -/
theorem exec_enumeration_next {s t : State} (h : exec .runEnumeration s = .next t) :
    s.ctx = .timer ∧ s.drv.mode = .ready ∧ s.now.2.timerDue s.now.1 = true ∧ t = timerFire s.now.2 := by
  obtain ⟨hc, h⟩ := s.whenIn_next h
  obtain ⟨hm, h⟩ := s.whenReady_next h
  split at h
  · cases h; exact ⟨hc, hm, ‹_›, rfl⟩
  · cases h

/-- A timer callback that takes place, field by field, from the reading of the clock on. -/
theorem exec_enumeration_frame {s t : State} (h : exec .runEnumeration s = .next t) : FireFrame s.now.2 t := by
  obtain ⟨-, -, -, rfl⟩ := exec_enumeration_next h
  exact timerFire_frame _

/-- A timer that is due, in its context on a live driver, fires. -/
theorem exec_enumeration (s : State) (hc : s.ctx = .timer) (hm : s.drv.mode = .ready)
    (hd : s.now.2.timerDue s.now.1 = true) : exec .runEnumeration s = .next (timerFire s.now.2) :=
  (if_pos hc).trans ((if_pos hm).trans (if_pos hd))

/-- What an operation changes that is neither INITIALIZE nor one of the two handlers: nothing of the block's own state. -/
structure PlainFrame (s t : State) : Prop where
  drv : t.drv = s.drv
  params : t.params = s.params
  program : t.program = s.program
  ctx : t.ctx = s.ctx
  storage : t.env.storage = s.env.storage
  handed : t.env.handed = s.env.handed
  clock : t.env.clock = s.env.clock
  poll : t.poll = s.poll ∨ s.poll = .modeWrite ∧ t.poll = .modeClock ∨ s.poll = .idle ∧ (t.poll = .idle
    ∨ s.drv.mode = .ready ∧ ((∃ c, t.poll = .sendAbsent c) ∨ t.poll = .recvCompare s.drv.wr))
  hist : ∃ evs, t.hist = s.hist ++ evs
  cs : s.chip.cs = false → t.chip.cs = false
  regs : Memory.wf s.chip.regs = true → Memory.wf t.chip.regs = true
  txBuf : Memory.wf s.chip.txBuf = true → Memory.wf t.chip.txBuf = true

/-- A value returned by POLL, with nothing else changed. -/
theorem PlainFrame.ret (s : State) (h : s.poll = .idle) (v : Ret) : PlainFrame s (s.ret v) :=
  ⟨rfl, rfl, rfl, rfl, rfl, rfl, rfl, .inr (.inr ⟨h, .inl rfl⟩), ⟨[], by simp⟩, id, id, id⟩

/-- A value returned outside POLL's operations, with nothing else changed. -/
theorem PlainFrame.answer (s : State) (v : Ret) : PlainFrame s (s.answer v) :=
  ⟨rfl, rfl, rfl, rfl, rfl, rfl, rfl, .inl rfl, ⟨[], by simp⟩, id, id, id⟩

/-- A frame with a value returned after it. -/
theorem PlainFrame.answered {s t : State} (h : PlainFrame s t) (v : Ret) : PlainFrame s (t.answer v) :=
  ⟨h.drv, h.params, h.program, h.ctx, h.storage, h.handed, h.clock, h.poll, h.hist, h.cs, h.regs, h.txBuf⟩

/-- One transaction, whatever is recorded of what it wrote. -/
theorem PlainFrame.transaction (s : State) (w : List Byte) (n : Nat) (regs txBuf : Memory)
    (hr : Memory.wf s.chip.regs = true → Memory.wf regs = true) (ht : Memory.wf s.chip.txBuf = true → Memory.wf txBuf = true) :
    PlainFrame s ((s.transaction w n).2.setChip ⟨false, regs, txBuf⟩) :=
  ⟨rfl, rfl, rfl, rfl, by simp, by simp, by simp, .inl rfl, ⟨_, rfl⟩, fun _ => rfl, hr, ht⟩

/-- TX_FIRE. -/
theorem PlainFrame.txFire (s : State) (r : List Byte) : PlainFrame s (s.txFire r) := by
  refine ⟨by simp, by simp, by simp, by simp, by simp, by simp, by simp, .inl (by simp), ⟨_, s.txFire_hist r⟩, ?_, ?_, ?_⟩
    <;> (unfold State.txFire; split <;> simp +contextual [Memory.wf_write, Memory.wf_writeAll])

/-- Everything an issued operation can do. -/
theorem exec_next {i : Instr} {s t : State} (h : exec i s = .next t) :
    (∃ b c l hz, i = .initDriver b c l hz ∧ s.ctx = .poll ∧ s.poll = .idle ∧ s.drv.mode = .uninit
      ∧ (s.params.oscTable.lookup hz).isSome
      ∧ t = (s.setDrv { s.drv with given := some ⟨b, c, l, hz⟩ }).start .initReset)
    ∨ (i = .irqHandler ∧ s.ctx = .irq ∧ s.deliverable = true ∧ irqBody s.enterIrq = .next t)
    ∨ (i = .runEnumeration ∧ s.ctx = .timer ∧ s.drv.mode = .ready ∧ s.now.2.timerDue s.now.1 = true
      ∧ t = timerFire s.now.2)
    ∨ (i ≠ .irqHandler ∧ i ≠ .runEnumeration ∧ PlainFrame s t) := by
  have plain (v : Ret) (h : s.whenIdle (.next (s.ret v)) = .next t) : PlainFrame s t := by
    obtain ⟨-, hp, h⟩ := s.whenIdle_next h
    cases h
    exact PlainFrame.ret s hp v
  have opc (o : Byte) (p : List Byte) (h : answerOpcode o p s = .next t) : PlainFrame s t := by
    obtain ⟨-, hp, h⟩ := s.whenIdle_next h
    split at h
    · cases h; exact PlainFrame.ret s hp _
    · cases h
  have pseudo (v : Ret) (h : s.whenIn .irq (s.whenReady (.next (s.answer v))) = .next t) : PlainFrame s t := by
    obtain ⟨-, h⟩ := s.whenIn_next h
    obtain ⟨-, h⟩ := s.whenReady_next h
    cases h
    exact PlainFrame.answer s v
  have bus (i : Instr) (u : State) (v : Ret) (h : s.whenCalled i (.next (u.answer v)) = .next t) (hu : PlainFrame s u) :
      PlainFrame s t := by
    obtain ⟨-, h⟩ := s.whenCalled_next h
    cases h
    exact hu.answered v
  cases i
  case initDriver b c l hz =>
    obtain ⟨hc, hp, h⟩ := s.whenIdle_next h
    split at h
    · cases h
    · split at h
      · cases h
      · rename_i hm ho
        cases h
        refine .inl ⟨b, c, l, hz, rfl, hc, hp, ?_, ?_, rfl⟩
        · cases hd : s.drv.mode
          · rfl
          · exact absurd hd hm
        · cases hl : s.params.oscTable.lookup hz
          · simp [hl] at ho
          · rfl
  case irqHandler => exact .inr (.inl ⟨rfl, exec_irq_next h⟩)
  case runEnumeration => exact .inr (.inr (.inl ⟨rfl, exec_enumeration_next h⟩))
  all_goals refine .inr (.inr (.inr ⟨by simp, by simp, ?_⟩))
  case encode =>
    obtain ⟨-, hp, h⟩ := s.whenIdle_next h
    split at h
    · cases h; exact PlainFrame.ret s hp _
    · cases h
  case send w =>
    obtain ⟨-, hp, h⟩ := s.whenIdle_next h
    obtain ⟨hm, h⟩ := s.whenReady_next h
    split at h
    · cases h; exact PlainFrame.ret s hp _
    · cases h
      exact ⟨rfl, rfl, rfl, rfl, rfl, rfl, rfl, .inr (.inr ⟨hp, .inr ⟨hm, .inl ⟨_, rfl⟩⟩⟩), ⟨[], by simp⟩, id, id, id⟩
  case receive =>
    obtain ⟨-, hp, h⟩ := s.whenIdle_next h
    obtain ⟨hm, h⟩ := s.whenReady_next h
    cases h
    exact ⟨rfl, rfl, rfl, rfl, rfl, rfl, rfl, .inr (.inr ⟨hp, .inr ⟨hm, .inr rfl⟩⟩), ⟨[], by simp⟩, id, id, id⟩
  case available =>
    obtain ⟨-, hp, h⟩ := s.whenIdle_next h
    obtain ⟨hm, h⟩ := s.whenReady_next h
    cases h
    exact PlainFrame.ret s hp _
  case txFire r =>
    obtain ⟨-, h⟩ := s.whenIn_next h
    obtain ⟨-, h⟩ := s.whenReady_next h
    split at h
    · cases h; exact PlainFrame.txFire s r
    · cases h
  case ownId => exact pseudo _ h
  case collisionRtr => exact pseudo _ h
  case modeSet =>
    obtain ⟨hc, h⟩ := s.whenCalled_next h
    cases h
    have hp : s.poll = .modeWrite := by
      unfold State.calls at hc
      split at hc
      · unfold State.pollCalls at hc
        split at hc <;> first | assumption | (exfalso; revert hc; simp)
      · exfalso; revert hc; simp [State.irqCalls]
      · cases hc
    exact ⟨rfl, rfl, rfl, rfl, rfl, rfl, rfl, .inr (.inl ⟨hp, rfl⟩), ⟨_, rfl⟩, fun _ => rfl, Memory.wf_write _ _, id⟩
  case regRead a => exact bus _ _ _ h (PlainFrame.transaction s _ 1 _ _ id id)
  case rxRead => exact bus _ _ _ h (PlainFrame.transaction s _ Config.recBytes _ _ id id)
  case regWrite a v => exact bus _ _ _ h (PlainFrame.transaction s _ 0 _ _ (Memory.wf_write _ _) id)
  case chipReset => exact bus _ _ _ h (PlainFrame.transaction s _ 0 _ _ (fun _ => rfl) (fun _ => rfl))
  case txLoad r => exact bus _ _ _ h (PlainFrame.transaction s _ 0 _ _ id (Memory.wf_writeAll _ _))
  case txRequest p => exact bus _ _ _ h (PlainFrame.transaction s _ 0 _ _ (Memory.wf_write _ _) id)
  case txAbort => exact bus _ _ _ h (PlainFrame.transaction s _ 0 _ _ (Memory.wf_write _ _) id)
  all_goals first
    | exact plain _ h
    | exact opc _ _ h

/-- What every micro-step of POLL leaves alone, whatever the operation. -/
structure PollFrame (s t : State) : Prop where
  params : t.params = s.params
  program : t.program = s.program
  ctx : t.ctx = s.ctx
  storage : t.env.storage = s.env.storage
  handed : t.env.handed = s.env.handed
  turns : t.env.turns = s.env.turns
  clock : s.env.clock ≤ t.env.clock
  cs : s.chip.cs = false → t.chip.cs = false
  hist : ∃ evs, t.hist = s.hist ++ evs
  regs : Memory.wf s.chip.regs = true → Memory.wf t.chip.regs = true
  txBuf : Memory.wf s.chip.txBuf = true → Memory.wf t.chip.txBuf = true
  ring : Memory.wf s.drv.ring = true → Memory.wf t.drv.ring = true

/-- Everything a micro-step of POLL leaves alone. -/
theorem pollContinue_frame {s t : State} (h : pollContinue s = .next t) : PollFrame s t := by
  have hc := s.env.clock_le_takeTick
  unfold pollContinue at h
  cases hp : s.poll <;> rw [hp] at h <;> simp only [] at h
  case recvCopy b =>
    unfold recvCopyStep at h
    split at h
    · cases h; constructor <;> simp +contextual
    · cases h
  all_goals
    cases h
    try simp only [initResetStep, initStatusStep, initWritesStep, modeWriteStep, modeClockStep, modeReadStep, modeTimeStep,
      initStateStep, initRegisterStep, sendAbsentStep, sendRecordStep, sendMaskStep, sendLoadStep, sendRequestStep,
      sendReadbackStep, sendClockStep, sendPollStep, sendTimeStep, sendAbortStep, sendGiveUpStep, recvCompareStep,
      recvAdvanceStep, recvReturnStep, State.raiseSend, State.raiseInit]
    repeat' split
    all_goals
      constructor <;>
        simp +contextual [State.latchAbsent_hist, Driver.initialized, Memory.wf_write, Memory.wf_writeAll, Memory.wf, hc]

/-- A property that every kind of move keeps is kept by every step. -/
theorem step_preserves {P : State → Prop} {s t : State}
    (handler : ∀ u t, P u → u.deliverable = true → irqBody u.enterIrq = .next t → P t)
    (fires : ∀ u, P u → u.drv.mode = .ready → P (timerFire u.now.2))
    (initStarts : ∀ u b c l hz, P u → u.poll = .idle → u.drv.mode = .uninit → (u.params.oscTable.lookup hz).isSome →
      P ((u.setDrv { u.drv with given := some ⟨b, c, l, hz⟩ }).start .initReset))
    (plain : ∀ u t, P u → PlainFrame u t → P t)
    (micro : ∀ u t, P u → u.poll ≠ .idle → pollContinue u = .next t → P t)
    (turn : ∀ u, P u → P u.takeTurn.2) (program : ∀ u bs, P u → P (u.setProgram bs)) (enters : ∀ u c, P u → P (u.enter c))
    (now : ∀ u, P u → P u.now.2) (edge : ∀ u, P u → P u.fallingEdge) (settles : ∀ u, P u → P u.settleStore)
    (restarts : ∀ u, P u → P u.restart) (hs : P s) (h : step s = .next t) : P t := by
  have hu := turn s hs
  have runs (i : Instr) (u : State) (hu : P u) (h : exec i u = .next t) : P t := by
    rcases exec_next h with ⟨b, c, l, hz, -, -, hp, hm, ho, rfl⟩ | ⟨-, -, hd, h⟩ | ⟨-, -, hm, -, rfl⟩ | ⟨-, -, hf⟩
    · exact initStarts _ _ _ _ _ hu hp hm ho
    · exact handler _ _ hu hd h
    · exact fires _ hu hm
    · exact plain _ _ hu hf
  rcases step_next h with ⟨-, h⟩ | ⟨-, ⟨-, h⟩ | rfl⟩ | ⟨-, ⟨-, h⟩ | rfl⟩ | ⟨-, rfl⟩ | ⟨-, rfl⟩ | ⟨-, rfl⟩
  · rcases runTurn_next h with ⟨-, rfl⟩ | ⟨-, i, rest, -, h⟩ | ⟨-, hp, h⟩
    · exact hu
    · exact runs i _ (program _ _ hu) h
    · exact micro _ _ hu hp h
  · exact runs _ _ (enters _ _ hu) h
  · exact hu
  · exact runs _ _ (enters _ _ hu) h
  · exact now _ hu
  · exact edge _ hu
  · exact settles _ hu
  · exact restarts _ hu

end Sys2Proof.Machine
end

