-- ==== Sys2Proof/Laws/Text.lean ====
section
/-! SUPPORT. Hex text and the shape check: what `hexBytes` writes, what `checkShape` accepts and returns. -/

namespace Sys2Proof

open Sys2Proof.Machine

/-- A written digit is a hex digit. -/
theorem isHex_hexDigit (v : Nat) (h : v < 16) : isHex (hexDigit v) = true := by
  interval_cases v <;> decide

/-- A written digit reads back as its value. -/
theorem hexVal_hexDigit (v : Nat) (h : v < 16) : hexVal (hexDigit v) = v := by
  interval_cases v <;> decide

/-- `unhex` undoes `hexBytes`. -/
theorem unhex_hexBytes (bs : List Byte) : unhex (hexBytes bs) = bs := by
  induction bs with
  | nil => rfl
  | cons b bs ih =>
    have h1 : b.toNat / 16 < 16 := by have := b.isLt; omega
    have h2 : b.toNat % 16 < 16 := by omega
    show unhex (hexDigit (b.toNat / 16) :: hexDigit (b.toNat % 16) :: hexBytes bs) = _
    rw [unhex, ih, hexVal_hexDigit _ h1, hexVal_hexDigit _ h2]
    congr 1
    apply BitVec.eq_of_toNat_eq
    have := b.isLt
    simp only [BitVec.toNat_ofNat]; omega

/-- Two digits a byte. -/
theorem hexBytes_length (bs : List Byte) : (hexBytes bs).length = 2 * bs.length := by
  induction bs with
  | nil => rfl
  | cons b bs ih => simp [hexBytes, hex2] at ih ⊢; omega

/-- `hexBytes` writes hex digits only. -/
theorem hexBytes_all (bs : List Byte) : ∀ x ∈ hexBytes bs, isHex x = true := by
  intro x hx
  simp only [hexBytes, List.mem_flatMap, hex2, List.mem_cons, List.not_mem_nil, or_false] at hx
  obtain ⟨b, -, rfl | rfl⟩ := hx
  · exact isHex_hexDigit _ (by have := b.isLt; omega)
  · exact isHex_hexDigit _ (by omega)

/-- The shape check accepts a string of a frame's form and returns its fields. -/
theorem checkShape_form (m k : Byte) (ids data : WireString) (n : Nat)
    (hm : idWidth m = some n) (hi : ids.length = n) (hk : k = chN ∨ k = chR)
    (h4 : 4 ≤ n) (h1 : ∀ x ∈ ids, isHex x = true) (h2 : ∀ x ∈ data, isHex x = true) (h3 : data.length ≤ 16) (h5 : data.length % 2 = 0) :
    checkShape (chColon :: m :: (ids ++ k :: (data ++ [chSemi]))) =
      .ok ⟨decide (n = 8), BitVec.ofNat 32 (hexNumber ids), decide (k = chR), unhex data⟩ := by
  obtain ⟨w, hw⟩ : ∃ w, w = chColon :: m :: (ids ++ k :: (data ++ [chSemi])) := ⟨_, rfl⟩
  have hl : w.length = n + data.length + 4 := by subst hw; simp [hi]; omega
  have h00 : w.getD 0 0 = chColon := by subst hw; rfl
  have h01 : w.getD 1 0 = m := by subst hw; rfl
  have hlast : w.getD (n + data.length + 4 - 1) 0 = chSemi := by
    have : n + data.length + 4 - 1 = n + (data.length + 1) + 1 + 1 := by omega
    rw [this, hw]; simp [hi]
  have hk' : w.getD (2 + n) 0 = k := by
    rw [Nat.add_comm 2 n, hw]; simp [hi]
  have ht : (w.drop 2).take n = ids := by subst hw; simp [← hi]
  have hd : (w.drop (3 + n)).take (n + data.length + 4 - 1 - (3 + n)) = data := by
    have e1 : n + data.length + 4 - 1 - (3 + n) = data.length := by omega
    have e2 : 3 + n = (n + 1) + 1 + 1 := by omega
    have e3 : n + 1 - ids.length = 1 := by omega
    rw [e1, e2, hw]
    simp only [List.drop_succ_cons, List.drop_append, e3]
    rw [List.drop_eq_nil_of_le (by omega)]
    simp
  have a1 : ids.all isHex = true := by simpa using h1
  have a2 : data.all isHex = true := by simpa using h2
  have c1 : ¬ (n + data.length + 4 < 8) := by omega
  have c2 : ¬ (n + data.length + 4 < n + 4) := by omega
  have c3 : ¬ (data.length % 2 = 1 ∨ 16 < data.length) := by omega
  have c4 : ¬ (k ≠ chN ∧ k ≠ chR) := by tauto
  rw [← hw]
  unfold checkShape
  rw [hl, hlast, h00, h01, hm]
  simp only [hk', ht, hd, a1, a2, c1, c2, c3, c4, if_false]
  simp

/-- A string the shape check accepts has the form of a frame. -/
theorem checkShape_ok_form (w : WireString) (c : Parsed) (h : checkShape w = .ok c) :
   ∃ (m k : Byte) (ids data : WireString) (n : Nat), w = chColon :: m :: (ids ++ k :: (data ++ [chSemi])) ∧
    idWidth m = some n ∧ ids.length = n ∧ (k = chN ∨ k = chR) ∧ (∀ x ∈ ids, isHex x = true) ∧ (∀ x ∈ data, isHex x = true)
    ∧ data.length ≤ 16 ∧ data.length % 2 = 0 := by
  unfold checkShape at h
  split at h
  · cases h
  split at h
  · cases h
  split at h
  · cases h
  rename_i h8 hcs _ n hn
  split at h
  · cases h
  split at h
  · cases h
  split at h
  · cases h
  rename_i hlen hids hk
  simp only at h
  split at h
  · cases h
  split at h
  · cases h
  rename_i hp hpl
  push Not at hcs
  have hn48 : n = 4 ∨ n = 8 := by
    unfold idWidth at hn; split at hn
    · left; simpa using hn.symm
    · split at hn
      · right; simpa using hn.symm
      · cases hn
  refine ⟨w.getD 1 0, w.getD (2 + n) 0, (w.drop 2).take n, (w.drop (3 + n)).take (w.length - 1 - (3 + n)), n, ?_, hn, ?_, ?_, ?_, ?_, ?_, ?_⟩
  · apply List.ext_getElem?
    intro i
    rcases Nat.lt_or_ge i w.length with hi | hi
    · rcases i with _ | _ | i
      · have : w[0]? = some (w.getD 0 0) := by rw [List.getD_eq_getElem?_getD]; simp [show 0 < w.length by omega]
        rw [this, hcs.1]; rfl
      · have : w[1]? = some (w.getD 1 0) := by rw [List.getD_eq_getElem?_getD]; simp [show 1 < w.length by omega]
        rw [this]; rfl
      · simp only [List.getElem?_cons_succ]
        have htl : ((w.drop 2).take n).length = n := by simp; omega
        by_cases h1 : i < n
        · rw [List.getElem?_append_left (by omega), List.getElem?_take_of_lt h1]
          rw [List.getElem?_drop]
          congr 1; omega
        · rw [List.getElem?_append_right (by omega), htl]
          by_cases h2 : i = n
          · subst h2
            simp [Nat.add_comm 2, List.getD_eq_getElem?_getD, hi]
          · obtain ⟨j, rfl⟩ : ∃ j, i = n + 1 + j := ⟨i - n - 1, by omega⟩
            have : n + 1 + j - n = j + 1 := by omega
            rw [this, List.getElem?_cons_succ]
            have hdl : ((w.drop (3 + n)).take (w.length - 1 - (3 + n))).length = w.length - 1 - (3 + n) := by simp; omega
            by_cases h3 : j < w.length - 1 - (3 + n)
            · rw [List.getElem?_append_left (by omega), List.getElem?_take_of_lt h3, List.getElem?_drop]
              congr 1; omega
            · have : j = w.length - 1 - (3 + n) := by omega
              rw [List.getElem?_append_right (by omega), hdl, this]
              have e : n + 1 + (w.length - 1 - (3 + n)) + 1 + 1 = w.length - 1 := by omega
              rw [e]
              have : w[w.length - 1]? = some (w.getD (w.length - 1) 0) := by rw [List.getD_eq_getElem?_getD]; simp [show w.length - 1 < w.length by omega]
              rw [this, hcs.2]; simp
    · rw [List.getElem?_eq_none hi, List.getElem?_eq_none]
      simp; omega
  · simp; omega
  · tauto
  · intro x hx; simp at hids; exact hids x hx
  · intro x hx; simp at hp; exact hp x hx
  · omega
  · omega

/-- The number the digits of a standard identifier field write. -/
theorem hexNumber2 (f : BitVec 16) : BitVec.ofNat 32 (hexNumber (hexBytes (bytes2 f))) = f.setWidth 32 := by
  have hf := f.isLt
  simp only [hexBytes, bytes2, List.flatMap_cons, List.flatMap_nil, hex2, List.append_nil, List.cons_append, List.nil_append, hexNumber, List.foldl]
  rw [hexVal_hexDigit _ (by have := (f.extractLsb' 8 8).isLt; omega), hexVal_hexDigit _ (by omega), hexVal_hexDigit _ (by have := (f.extractLsb' 0 8).isLt; omega), hexVal_hexDigit _ (by omega)]
  apply BitVec.eq_of_toNat_eq
  simp [BitVec.extractLsb'_toNat, Nat.shiftRight_eq_div_pow]
  omega

/-- The number the digits of an extended identifier field write. -/
theorem hexNumber4 (f : BitVec 32) : BitVec.ofNat 32 (hexNumber (hexBytes (bytes4 f))) = f := by
  have hf := f.isLt
  simp only [hexBytes, bytes4, List.flatMap_cons, List.flatMap_nil, hex2, List.append_nil, List.cons_append, List.nil_append, hexNumber, List.foldl]
  rw [hexVal_hexDigit _ (by have := (f.extractLsb' 8 8).isLt; omega), hexVal_hexDigit _ (by omega), hexVal_hexDigit _ (by have := (f.extractLsb' 0 8).isLt; omega), hexVal_hexDigit _ (by omega), hexVal_hexDigit _ (by have := (f.extractLsb' 24 8).isLt; omega), hexVal_hexDigit _ (by omega), hexVal_hexDigit _ (by have := (f.extractLsb' 16 8).isLt; omega), hexVal_hexDigit _ (by omega)]
  apply BitVec.eq_of_toNat_eq
  simp [BitVec.extractLsb'_toNat, Nat.shiftRight_eq_div_pow]
  omega

/-- The shape check accepts a standard frame text and returns its fields. -/
theorem checkShape_frame2 (a b : Byte) (rtr : Bool) (data : List Byte) (h : data.length ≤ 8) :
    checkShape (frameText false [a, b] rtr data) = .ok ⟨false, BitVec.ofNat 32 (hexNumber (hexBytes [a, b])), rtr, data⟩ := by
  have := checkShape_form chS (if rtr then chR else chN) (hexBytes [a, b]) (hexBytes data) 4 rfl (by simp [hexBytes_length]) (by cases rtr <;> simp) (by omega) (hexBytes_all _) (hexBytes_all _) (by rw [hexBytes_length]; omega) (by rw [hexBytes_length]; omega)
  rw [frameText]
  simp only [Bool.false_eq_true, if_false]
  rw [this, unhex_hexBytes]
  cases rtr <;> (simp; try decide)

/-- The shape check accepts an extended frame text and returns its fields. -/
theorem checkShape_frame4 (a b c d : Byte) (rtr : Bool) (data : List Byte) (h : data.length ≤ 8) :
    checkShape (frameText true [a, b, c, d] rtr data) = .ok ⟨true, BitVec.ofNat 32 (hexNumber (hexBytes [a, b, c, d])), rtr, data⟩ := by
  have := checkShape_form chX (if rtr then chR else chN) (hexBytes [a, b, c, d]) (hexBytes data) 8 rfl (by simp [hexBytes_length]) (by cases rtr <;> simp) (by omega) (hexBytes_all _) (hexBytes_all _) (by rw [hexBytes_length]; omega) (by rw [hexBytes_length]; omega)
  rw [frameText]
  simp only [if_true]
  rw [this, unhex_hexBytes]
  cases rtr <;> (simp; try decide)

/-- The shape check on a standard frame text of a 16-bit field. -/
theorem checkShape_S (f : BitVec 16) (rtr : Bool) (data : List Byte) (h : data.length ≤ 8) :
    checkShape (frameText false (bytes2 f) rtr data) = .ok ⟨false, f.setWidth 32, rtr, data⟩ := by
  rw [bytes2, checkShape_frame2 _ _ _ _ h, ← bytes2, hexNumber2]

/-- The shape check on an extended frame text of a 32-bit field. -/
theorem checkShape_X (f : BitVec 32) (rtr : Bool) (data : List Byte) (h : data.length ≤ 8) :
    checkShape (frameText true (bytes4 f) rtr data) = .ok ⟨true, f, rtr, data⟩ := by
  rw [bytes4, checkShape_frame4 _ _ _ _ _ _ h, ← bytes4, hexNumber4]

/-- The bytes of a field made of two bytes. -/
theorem bytes2_append (x y : Byte) : bytes2 (x ++ y) = [x, y] := by
  have h1 : (x ++ y).extractLsb' 8 8 = x := by
    apply BitVec.eq_of_toNat_eq
    have := x.isLt; have := y.isLt
    simp only [BitVec.extractLsb'_toNat, BitVec.toNat_append, Nat.shiftRight_eq_div_pow]
    rw [← Nat.shiftLeft_add_eq_or_of_lt y.isLt, Nat.shiftLeft_eq]; omega
  have h2 : (x ++ y).extractLsb' 0 8 = y := by
    apply BitVec.eq_of_toNat_eq
    have := x.isLt; have := y.isLt
    simp only [BitVec.extractLsb'_toNat, BitVec.toNat_append, Nat.shiftRight_eq_div_pow]
    rw [← Nat.shiftLeft_add_eq_or_of_lt y.isLt, Nat.shiftLeft_eq]; omega
  rw [bytes2, h1, h2]

/-- A record has at most 8 data bytes. -/
theorem recData_length (c : Chip) (b : List Byte) : (recData c b).length ≤ 8 := by
  simp [recData, recLen]

end Sys2Proof
end

