-- ==== Sys2Proof/Tests/Slice0.lean ====
section
/-! SUPPORT. Tests with expected results from the spec (95_test_vectors, the rules' examples), the WellFormed smoke, and for every
statement with hypotheses a witness that meets them. -/

namespace Sys2Proof.Tests

open Sys2Proof Sys2Proof.Machine

/-! ### Helpers -/

/-- A wire string from text. -/
def str (s : String) : WireString := s.toList.map fun c => BitVec.ofNat 8 c.toNat

/-- A receive record in the default layout (95_test_vectors, conventions). -/
def rxRec (hi lo dlc : Byte) (data : List Byte) : List Byte :=
  [hi, lo, 0, 0, dlc] ++ data ++ List.replicate (8 - data.length) 0

/-- A live driver as the vectors of 95_test_vectors B5 start: `N = 4`, `selfId = (0, 32)`, everything else as after INITIALIZE. -/
def live : State :=
  { State.reset with
    drv := { Driver.powerOn with
      mode := .ready, given := some ⟨1, 2, 3, 16000000⟩, slots := 4, selfId := ⟨0, 32⟩, irqEnabled := true } }

/-- The controller's next answers. -/
def answering (bs : List Byte) (s : State) : State := { s with env := { s.env with answers := bs } }

/-- The milliseconds that pass before each reading of the clock. -/
def ticking (ds : List Nat) (s : State) : State := { s with env := { s.env with ticks := ds } }

/-- The agents that move next. -/
def moving (ts : List Turn) (s : State) : State := { s with env := { s.env with turns := ts } }

/-- A live driver in which the handler is deliverable and the controller answers a record. -/
def received (r : List Byte) : State :=
  answering r { live with ctx := .irq, drv := { live.drv with irqPend := true } }

/-- The same, in the enumeration sub-state with the ids seen so far. -/
def enumerating (seen : List IdPair) (r : List Byte) : State :=
  answering r { live with ctx := .irq, drv := { live.drv with
    irqPend := true, enum := true, timerArmed := true, timerDeadline := 100, seen := seen } }

/-- The same in the timer's context. -/
def expiring (seen : List IdPair) : State := { enumerating seen [] with ctx := .timer }

/-- A driver inside INITIALIZE or SEND, at a position of POLL. -/
def polling (p : PollPos) : State := { live with poll := p }

/-- The code of the handler, on a live driver. -/
def handling : State := { live with ctx := .irq }

/-- What a function sees of the next state, if there is one. -/
def look {α : Type} (o : Out) (f : State → α) : Option α :=
  match o with
  | .next t => some (f t)
  | .fault _ => none
  | .refused _ => none

/-- The refusal, if that is the outcome. -/
def refusal (o : Out) : Option Refusal :=
  match o with
  | .next _ => none
  | .fault _ => none
  | .refused r => some r

/-! ### WellFormed: one ill-formed term for each check, refused -/

theorem test_wf_refuses_wide_standard_id : (Instr.encode false 0x800 0x90 []).wf = false := by decide
theorem test_wf_refuses_long_encode_payload : (Instr.encode true 1 0x90 (List.replicate 8 0)).wf = false := by decide
theorem test_wf_accepts_boundaries :
    (Instr.encode false 0x7FF 0xD2 (List.replicate 7 0)).wf = true
      ∧ (Instr.encode true 0xFFFFFFFF 0xD2 (List.replicate 7 0)).wf = true := by decide
theorem test_wf_refuses_short_record : (Instr.txFire (List.replicate 4 0)).wf = false := by decide
theorem test_wf_refuses_long_record : (Instr.txLoad (List.replicate 14 0)).wf = false := by decide
theorem test_wf_refuses_long_data :
    (Instr.wireSN 0 (List.replicate 9 0)).wf = false ∧ (Instr.wireXR 0 (List.replicate 9 0)).wf = false := by decide
theorem test_wf_refuses_long_opcode_payload : (Instr.opc90 (List.replicate 8 0)).wf = false := by decide

/-! ### Decoding: words written out from the spec's encodings -/

/-- The nine selectors (30_encoding R108); operand bytes of zeros where the operation has operands. -/
theorem test_decode_selectors :
    decodeTableWord 8 0x0 = some (.encode false 0 0 []) ∧ decodeTableWord 8 0x1 = some (.decode [])
      ∧ decodeTableWord 8 0x2 = some (.initDriver 0 0 0 0) ∧ decodeTableWord 8 0x3 = some (.send [])
      ∧ decodeTableWord 8 0x4 = some .receive ∧ decodeTableWord 8 0x5 = some .available
      ∧ decodeTableWord 8 0x8 = some .irqHandler ∧ decodeTableWord 8 0x9 = some .runEnumeration
      ∧ decodeTableWord 8 0xA = some (.txFire [0, 0, 0, 0, 0]) := by decide

/-- The selectors that name nothing (30_encoding R108). -/
theorem test_decode_rejects_free_selectors :
    decodeTableWord 8 0x6 = none ∧ decodeTableWord 8 0x7 = none ∧ decodeTableWord 8 0xB = none
      ∧ decodeTableWord 8 0xC = none ∧ decodeTableWord 8 0xE = none ∧ decodeTableWord 8 0xF = none := by decide

/-- The nineteen opcode bytes (30_encoding R113). -/
theorem test_decode_opcode_bytes :
    decodeTableWord 8 0x0D = some (.opc0D []) ∧ decodeTableWord 8 0x10 = some (.opc10 [])
      ∧ decodeTableWord 8 0x42 = some (.opc42 []) ∧ decodeTableWord 8 0x50 = some (.opc50 [])
      ∧ decodeTableWord 8 0x52 = some (.opc52 []) ∧ decodeTableWord 8 0x53 = some (.opc53 [])
      ∧ decodeTableWord 8 0x54 = some (.opc54 []) ∧ decodeTableWord 8 0x57 = some (.opc57 [])
      ∧ decodeTableWord 8 0x58 = some (.opc58 []) ∧ decodeTableWord 8 0x71 = some (.opc71 [])
      ∧ decodeTableWord 8 0x73 = some (.opc73 []) ∧ decodeTableWord 8 0x90 = some (.opc90 [])
      ∧ decodeTableWord 8 0x91 = some (.opc91 []) ∧ decodeTableWord 8 0x95 = some (.opc95 [])
      ∧ decodeTableWord 8 0x96 = some (.opc96 []) ∧ decodeTableWord 8 0x98 = some (.opc98 [])
      ∧ decodeTableWord 8 0x99 = some (.opc99 []) ∧ decodeTableWord 8 0x9C = some (.opc9C [])
      ∧ decodeTableWord 8 0xD2 = some (.opcD2 []) := by decide

/-- The four wire formats (30_encoding R91), texts of 95_test_vectors B2 rows 1, 3, 6, 7. -/
theorem test_decode_wire_formats :
    decode (str ":SB020N900000000A;") = .ok (.wireSN 0xB020 [0x90, 0, 0, 0, 0x0A], [])
      ∧ decode (str ":S0020R;") = .ok (.wireSR 0x0020 [], [])
      ∧ decode (str ":X12345678N52ABCD;") = .ok (.wireXN 0x12345678 [0x52, 0xAB, 0xCD], [])
      ∧ decode (str ":X00000000R;") = .ok (.wireXR 0 [], []) := by decide

/-- A frame whose text fails the shape check is rejected by the check's own name (B2 row 23). -/
theorem test_decode_rejects_bad_frame :
    decode (str ":S00G0N00;") = .error (.badShape .nonHexDigits) := by decide

/-- The model's own keys of the bus rows and the pseudo-frames (log 2). -/
theorem test_decode_model_keys :
    decode [0xE0, 0x0E] = .ok (.regRead 0x0E, []) ∧ decode [0xE1, 0x2B, 0x01] = .ok (.regWrite 0x2B 0x01, [])
      ∧ decode [0xE2] = .ok (.chipReset, []) ∧ decode [0xE3] = .ok (.rxRead, [])
      ∧ decode [0xE8] = .ok (.ownId, []) ∧ decode [0xE9] = .ok (.collisionRtr, []) := by decide

/-- The model's own keys with an operand, and what they reject (log 2). -/
theorem test_decode_model_operands :
    decode [0xE4, 0, 0, 0x20, 0, 0, 0] = .ok (.txLoad [0, 0x20, 0, 0, 0], [])
      ∧ decode [0xE5, 3] = .ok (.txRequest .high, []) ∧ decode [0xE5, 2] = .ok (.txRequest .retry, [])
      ∧ decode [0xE6] = .ok (.txAbort, []) ∧ decode [0xE7] = .ok (.modeSet, [])
      ∧ decode [0xE5, 1] = .error .badOperand ∧ decode [0xFF] = .error (.unknownKey 0xFF)
      ∧ decode [0xE1, 0x2B] = .error .truncated := by decide

/-- The model's own form of a string, which has no bound, and of the oscillator's frequency (log 2). -/
theorem test_decode_model_strings :
    decode [0x03, 1, 0x3A, 1, 0x3B, 0, 0x05] = .ok (.send [0x3A, 0x3B], [0x05])
      ∧ decode [0x01, 1, 0x3A] = .error .truncated ∧ decode [0x01, 2, 0x3A, 0] = .error .badOperand
      ∧ decode [0x02, 0, 0, 0, 1, 0, 0, 0, 2, 0, 0, 0, 3, 1, 0x00, 1, 0x24, 1, 0xF4, 0]
        = .ok (.initDriver 1 2 3 16000000, []) := by decide

/-- The byte patterns of the bus transactions under G1 (41_bus_transactions R152 to R159, the examples). -/
theorem test_bus_bytes :
    busBytes Config.g1 (.regRead 0x0E) = some [0x03, 0x0E]
      ∧ busBytes Config.g1 (.regWrite 0x2B 0x01) = some [0x02, 0x2B, 0x01]
      ∧ busBytes Config.g1 .chipReset = some [0xC0] ∧ busBytes Config.g1 .rxRead = some [0x90]
      ∧ busBytes Config.g1 (.txLoad [0xB0, 0x20, 0, 0, 5, 0x90, 0, 0, 0, 0x0A])
          = some [0x40, 0xB0, 0x20, 0, 0, 5, 0x90, 0, 0, 0, 0x0A]
      ∧ busBytes Config.g1 (.txRequest .high) = some [0x02, 0x30, 0x0B]
      ∧ busBytes Config.g1 (.txRequest .retry) = some [0x02, 0x30, 0x0A]
      ∧ busBytes Config.g1 .txAbort = some [0x02, 0x30, 0x00]
      ∧ busBytes Config.g1 .modeSet = some [0x02, 0x0F, 0x00] := by decide

/-! ### The codec -/

/-- ENCODE, 95_test_vectors B1 rows 1, 3, 5. -/
theorem test_encode_text :
    encodeText false 0x581 0x90 [0, 0, 0, 0x0A] = str ":SB020N900000000A;"
      ∧ encodeText false 0x7FF 0xD2 [1, 2, 3, 4, 5, 6, 7] = str ":SFFE0ND201020304050607;"
      ∧ encodeText true 0x12345678 0x52 [0xAB, 0xCD] = str ":X12345678N52ABCD;" := by decide

/-- ENCODE, B1 rows 2 and 8. -/
theorem test_encode_step :
    look (exec (.encode false 0x001 0x0D []) State.reset) (·.result) = some (some (.wire (str ":S0020N0D;")))
      ∧ refusal (exec (.encode false 0x800 0x90 []) State.reset) = some .encodeArguments := by decide

/-- DECODE, B2 rows 1, 4, 5, 9. -/
theorem test_decode_accepts :
    decodeText (str ":SB020N900000000A;") = .ok ⟨false, false, 0x581, some 0x90, [0, 0, 0, 0x0A]⟩
      ∧ decodeText (str ":Sb020N9a;") = .ok ⟨false, false, 0x581, some 0x9A, []⟩
      ∧ decodeText (str ":S003FN0D;") = .ok ⟨false, false, 0x001, some 0x0D, []⟩
      ∧ decodeText (str ":S0020R0102;") = .ok ⟨false, true, 0x001, some 0x01, [0x02]⟩ := by decide

/-- DECODE and the eight checks, B2 rows 11, 13, 15, 18, 20, 22, 24, 25, 27, 29, 30, 31. -/
theorem test_decode_rejects :
    checkShape (str "") = .error .frameTooShort ∧ checkShape (str ":S0020N") = .error .frameTooShort
      ∧ checkShape (str "S0020N00;") = .error .malformedFrame ∧ checkShape (str ":S0020N0D; ") = .error .malformedFrame
      ∧ checkShape (str ":sb020n90;") = .error .unrecognizedFrameKind
      ∧ checkShape (str ":X0020N00;") = .error .frameTooShort ∧ checkShape (str ":S00 20N;") = .error .nonHexDigits
      ∧ checkShape (str ":X0020N0000;") = .error .nonHexDigits
      ∧ checkShape (str ":S0020Q00;") = .error .unrecognizedFrameKind
      ∧ checkShape (str ":S0020N0D:;") = .error .nonHexDigits ∧ checkShape (str ":S0020N0;") = .error .malformedFrame
      ∧ checkShape (str ":S0020N010203040506070809;") = .error .malformedFrame := by decide

/-- The wire formats' step, B2 rows 2 and 8. -/
theorem test_wire_step :
    look (exec (.wireSN 0x0020 []) State.reset) (·.result)
        = some (some (.frame (str ":S0020N;") (.ok ⟨false, 0x0020, false, []⟩)))
      ∧ look (exec (.wireXN 0x00200000 []) State.reset) (·.result)
        = some (some (.frame (str ":X00200000N;") (.ok ⟨true, 0x00200000, false, []⟩))) := by decide

/-- An opcode byte's data field (95_test_vectors A9: `90 00 00 00 0A`). -/
theorem test_opcode_step :
    look (exec (.opc90 [0, 0, 0, 0x0A]) State.reset) (·.result)
      = some (some (.data [0x90, 0, 0, 0, 0x0A] (str "900000000A"))) := by decide

/-- The pseudo-frames' records, 95_test_vectors B3: `OWN_ID((0,96))`, `COLLISION_RTR((0,32))`. -/
theorem test_pseudo_frames :
    ownIdRec Config.g1 ⟨0, 96⟩ = [0x00, 0x60, 0, 0, 0] ∧ collisionRec Config.g1 ⟨0, 32⟩ = [0x00, 0x20, 0, 0, 0x40]
      ∧ ownIdText ⟨0, 96⟩ = str ":S0060N;" ∧ collisionText ⟨0, 32⟩ = str ":S0020R;" := by decide

/-- Transmit records, 95_test_vectors B3 rows 4, 5, 6, 7. -/
theorem test_transmit_records :
    mkTxRec Config.g1 false 0x003F false [0x0D] = [0x00, 0x20, 0, 0, 1, 0x0D]
      ∧ mkTxRec Config.g1 false 0xFFFF false [1, 2, 3, 4, 5, 6, 7, 8] = [0xFF, 0xE0, 0, 0, 8, 1, 2, 3, 4, 5, 6, 7, 8]
      ∧ mkTxRec Config.g1 false 0x0020 true [1, 2] = [0x00, 0x20, 0, 0, 0x42, 1, 2]
      ∧ mkTxRec Config.g1 true 0x12345678 false [0x52, 0xAB, 0xCD] = [0x12, 0x3C, 0x56, 0x78, 3, 0x52, 0xAB, 0xCD] := by
  decide

/-- Record to text, 95_test_vectors B4 rows 1, 4, 5, 7, 9. -/
theorem test_record_text :
    recToWire Config.g1 [0xB0, 0x20, 0, 0, 5, 0x90, 0, 0, 0, 0x0A, 0xEE, 0xEE, 0xEE] = str ":SB020N900000000A;"
      ∧ recToWire Config.g1 (rxRec 0x00 0x30 3 [9, 9, 9]) = str ":S0020R;"
      ∧ recToWire Config.g1 [0x12, 0x3C, 0x56, 0x78, 2, 0xAB, 0xCD, 0, 0, 0, 0, 0, 0] = str ":X123C5678NABCD;"
      ∧ recToWire Config.g1 [0xB0, 0x27, 0xFF, 0xFF, 0x0F, 1, 2, 3, 4, 5, 6, 7, 8] = str ":SB020N0102030405060708;"
      ∧ recToWire Config.g1 (List.replicate 13 0xFF) = str ":XFFFFFFFFR;" := by decide

/-- `packHeader` and `idOf`, 95_test_vectors B1's second table and B7. -/
theorem test_headers :
    packHeader 2 3 1 = 0x581 ∧ packHeader 3 3 127 = 0x7FF ∧ unpackHeader 0x581 = (2, 3, 1)
      ∧ idPairOf 0xB020 = ⟨176, 32⟩ ∧ idPairOf 0xFFE0 = ⟨255, 224⟩ := by decide

/-- The scan space has 127 candidates (45_enumeration R224). -/
theorem test_scan_space : candidates.length = 127 := by simp [candidates, Config.enumFirst, Config.enumLast]

/-! ### Bus transactions, one step each -/

/-- REG_READ: what the controller answers is returned and recorded (41_bus_transactions R152); at another position it is refused
(60_exceptions R260). -/
theorem test_reg_read :
    look (exec (.regRead 0x0E) (answering [0x80] (polling .initStatus))) (fun t => (t.result, t.hist))
      = some (some (.byte 0x80), [.tx [0x03, 0x0E] [0x80]])
      ∧ refusal (exec (.regRead 0x0E) live) = some .wrongContext
      ∧ refusal (exec (.regRead 0x0F) (polling .initStatus)) = some .wrongContext := by decide

/-- RX_READ takes thirteen bytes, in the handler's code (41_bus_transactions R155). -/
theorem test_rx_read :
    look (exec .rxRead (answering (rxRec 0xB0 0x20 1 [0x0D] ++ [7]) handling)) (fun t => (t.result, t.env.answers))
      = some (some (.record (rxRec 0xB0 0x20 1 [0x0D])), [7]) := by decide

/-- REG_WRITE, TX_REQUEST, TX_ABORT, CHIP_RESET: their bytes (41_bus_transactions, the examples). -/
theorem test_bus_writes :
    look (exec (.regWrite 0x2B 0x01) (polling (.initWrites [(0x2B, 0x01)]))) (fun t => (t.chip.regs, t.hist))
        = some ([(0x2B, 0x01)], [.tx [0x02, 0x2B, 0x01] []])
      ∧ look (exec (.txRequest .high) (polling (.sendRequest .first))) (fun t => (t.chip.regs, t.hist))
        = some ([(0x30, 0x0B)], [.tx [0x02, 0x30, 0x0B] []])
      ∧ look (exec .txAbort (polling (.sendAbort .first))) (fun t => (t.chip.regs, t.hist))
        = some ([(0x30, 0x00)], [.tx [0x02, 0x30, 0x00] []])
      ∧ look (exec .chipReset (polling .initReset)) (fun t => (t.chip.regs, t.hist)) = some ([], [.tx [0xC0] []]) := by decide

/-- TX_LOAD, 95_test_vectors B3 row 1. -/
theorem test_tx_load :
    look (exec (.txLoad [0xB0, 0x20, 0, 0, 5, 0x90, 0, 0, 0, 0x0A])
          (polling (.sendLoad [0xB0, 0x20, 0, 0, 5, 0x90, 0, 0, 0, 0x0A])))
        (fun t => (t.hist, Memory.read t.chip.txBuf 5, Memory.read t.chip.txBuf 10))
      = some ([.tx [0x40, 0xB0, 0x20, 0, 0, 5, 0x90, 0, 0, 0, 0x0A] []], some 0x90, none) := by decide

/-- MODE_SET begins with its register write (41_bus_transactions R159). -/
theorem test_mode_set :
    look (exec .modeSet (polling .modeWrite)) (fun t => (t.poll, t.hist)) = some (.modeClock, [.tx [0x02, 0x0F, 0x00] []])
      ∧ refusal (exec .modeSet live) = some .wrongContext := by
  decide

/-- TX_FIRE, the example of 43_send R192, with the controller absent, and from POLL (60_exceptions R260). -/
theorem test_tx_fire :
    look (exec (.txFire [0, 0x20, 0, 0, 0]) handling) (·.hist)
        = some [.tx [0x40, 0, 0x20, 0, 0, 0] [], .tx [0x02, 0x30, 0x0B] []]
      ∧ look (exec (.txFire [0, 0x20, 0, 0, 0]) { handling with drv := { live.drv with absent := true } }) (·.hist)
        = some []
      ∧ refusal (exec (.txFire [0, 0x20, 0, 0, 0]) live) = some .wrongContext := by decide

/-! ### INITIALIZE and SEND, one micro-step each -/

/-- INITIALIZE keeps its arguments; 95_test_vectors B9 rows 6 and 7 are refused. -/
theorem test_initialize :
    look (exec (.initDriver 1 2 3 16000000) State.reset) (fun t => (t.poll, t.cfg, t.drv.mode))
        = some (.initReset, some ⟨1, 2, 3, 16000000⟩, .uninit)
      ∧ refusal (exec (.initDriver 1 2 3 12345678) State.reset) = some .unknownOscillator
      ∧ refusal (exec (.initDriver 1 2 3 16000000) live) = some .alreadyInitialized := by decide

/-- INITIALIZE's status check, 95_test_vectors B9 rows 2 and 4; after its error `cfg` is as at power-on (10_state R53). -/
theorem test_initialize_status :
    (initStatusStep (answering [0x87] { live with poll := .initStatus })).poll
        = .initWrites [(0x2A, 0x03), (0x29, 0xF0), (0x28, 0x86), (0x60, 0x60), (0x70, 0x60), (0x2B, 0x01)]
      ∧ (initStatusStep (answering [0xFF] { live with poll := .initStatus })).result
        = some (.inited (.error .controllerNotPresent))
      ∧ look (callRun (.initDriver 1 2 3 16000000) 2 (answering [0xFF] State.reset)) (fun t => (t.poll, t.cfg, t.drv.mode))
        = some (.idle, none, .uninit) := by decide

/-- SEND's first micro-step; 95_test_vectors B8 rows 9 and 10. -/
theorem test_send :
    look (exec (.send (str ":S0020N0D;")) live) (·.poll) = some (.sendAbsent ⟨false, 0x0020, false, [0x0D]⟩)
      ∧ look (exec (.send (str ":S0020N")) live) (·.result) = some (some (.sent (.error .frameTooShort)))
      ∧ refusal (exec (.send (str ":S0020N")) State.reset) = some .notReady := by decide

/-- SEND's readback, 95_test_vectors B8 rows 2, 4, 8. -/
theorem test_send_readback :
    (sendReadbackStep (answering [0x03] live)).poll = .sendClock .first
      ∧ (sendReadbackStep (answering [0xFF] live)).poll = .sendClock .first
      ∧ (sendReadbackStep (answering [0x00] live)).drv.absent = true
      ∧ (sendReadbackStep (answering [0x00] live)).hist
        = [.tx [0x03, 0x30] [0x00], .log .controllerNotPresent] := by decide

/-! ### The receive path -/

/-- IRQ_HANDLER, 95_test_vectors B5 rows 1 and 8. -/
theorem test_irq_enqueue_and_collision :
    look (exec .irqHandler (received (rxRec 0xB0 0x20 5 [0x90, 0, 0, 0, 0x0A])))
        (fun t => (t.drv.wr, t.drv.irqPend, Memory.read t.drv.ring 9, t.hist.length))
        = some (1, false, some 0x0A, 1)
      ∧ look (exec .irqHandler (ticking [0] (received (rxRec 0x00 0x20 5 [0x90, 0, 1, 0, 2]))))
        (fun t => (t.drv.wr, t.drv.enum, t.drv.timerDeadline, t.hist.drop 1))
        = some (1, true, 100, [.tx [0x40, 0, 0x20, 0, 0, 0x40] [], .tx [0x02, 0x30, 0x0B] []]) := by decide

/-- IRQ_HANDLER, 95_test_vectors B5 rows 2, 10. -/
theorem test_irq_answer_and_collect :
    look (exec .irqHandler (received (rxRec 0x00 0x30 0 []))) (fun t => (t.drv.wr, t.drv.enum, t.hist.drop 1))
        = some (0, false, [.tx [0x40, 0, 0x20, 0, 0, 0] [], .tx [0x02, 0x30, 0x0B] []])
      ∧ look (exec .irqHandler (enumerating [] (rxRec 0x00 0x20 0 []))) (fun t => (t.drv.wr, t.drv.seen))
        = some (0, [⟨0, 32⟩]) := by decide

/-- RECEIVE's first micro-step, and on an empty ring its second (95_test_vectors B6 row 4). -/
theorem test_receive :
    look (exec .receive live) (·.poll) = some (.recvCompare 0)
      ∧ look (pollContinue { live with poll := .recvCompare 0 }) (·.result) = some (some (.received none)) := by decide

/-- AVAILABLE, 95_test_vectors B6 row 3: `N = 8`, `wr = 1`, `rd = 6`. -/
theorem test_available :
    look (exec .available { live with params := { live.params with n := 8 }, drv := { live.drv with wr := 1, rd := 6 } })
      (·.result) = some (some (.count 3)) := by decide

/-- RUN_ENUMERATION, 95_test_vectors B7 rows 2 and 6. -/
theorem test_run_enumeration :
    look (exec .runEnumeration (ticking [100] (expiring [⟨0, 32⟩, ⟨0, 64⟩]))) (fun t => (t.drv.selfId, t.hist))
        = some (⟨0, 96⟩, [.persist ⟨0, 96⟩])
      ∧ look (exec .runEnumeration (ticking [100] (expiring [⟨0, 0⟩]))) (fun t => (t.drv.selfId, t.drv.seen))
        = some (⟨0, 32⟩, []) := by decide

/-- Durable storage: a pair handed over is settled later, then loaded (20_memory R80, 45_enumeration R228, 42_initialize R174). -/
theorem test_storage :
    let handed : State := { State.reset with env := { State.reset.env with handed := [⟨0, 96⟩], stores := [true] } }
    let lost : State := { State.reset with env := { State.reset.env with handed := [⟨0, 96⟩], stores := [false] } }
    handed.settleStore.env.storage = some ⟨0, 96⟩ ∧ handed.settleStore.env.handed = []
      ∧ lost.settleStore.env.storage = none ∧ lost.settleStore.env.handed = []
      ∧ (initStateStep { State.reset with env := { State.reset.env with storage := some ⟨0, 96⟩, stores := [true] } }).drv.selfId
        = ⟨0, 96⟩ := by decide

/-- Pending edges, 95_test_vectors B10 rows 1, 2, 5. -/
theorem test_edges :
    State.reset.fallingEdge = State.reset ∧ live.fallingEdge.drv.irqPend = true
      ∧ (State.fallingEdge { live with
          params := { live.params with maskedEdge := .drop }, drv := { live.drv with irqMask := true } }).drv.irqPend
        = false := by decide

/-- The fetch: a table word placed is what the next step runs (log 2). -/
theorem test_fetch :
    look (step (State.reset.withFetchWord 8 0x90)) (·.result) = some (some (.data [0x90] (str "90")))
      ∧ look (step (live.withFetchWord 8 0x5)) (·.result) = some (some (.count 0)) := by decide

/-! ### Witnesses: for each statement with hypotheses a state and operands that meet them together -/

/-- `Obligations.DecodeReadsEncodedOperation`, at the boundaries of the operands' ranges. -/
theorem witness_DecodeReadsEncodedOperation :
    (Instr.encode false 0x7FF 0xD2 [1, 2, 3, 4, 5, 6, 7]).wf = true ∧ (Instr.txFire (List.replicate 5 0)).wf = true
      ∧ (Instr.txLoad (List.replicate 13 0)).wf = true ∧ (Instr.wireXR 0xFFFFFFFF (List.replicate 8 0)).wf = true
      ∧ (Instr.initDriver 0 0 0 4294967296).wf = true ∧ (Instr.send []).wf = true ∧ Instr.receive.wf = true := by decide

/-- `Obligations.ShapeCheckReportsFirstFailure`: a string under each clause. -/
theorem witness_ShapeCheckReportsFirstFailure :
    (str ":S0020N").length < 8
      ∧ (8 ≤ (str "S0020N00;").length ∧ (str "S0020N00;").getD 0 0 ≠ 0x3A)
      ∧ (8 ≤ (str ":T0020N;").length ∧ (str ":T0020N;").getD 0 0 = 0x3A ∧ (str ":T0020N;").getD 7 0 = 0x3B
        ∧ (str ":T0020N;").getD 1 0 ≠ 0x53 ∧ (str ":T0020N;").getD 1 0 ≠ 0x58)
      ∧ ((str ":X0020N;").getD 1 0 = 0x58 ∧ (str ":X0020N;").length < 8 + 4)
      ∧ ((str ":S00G0N;").getD 1 0 = 0x53 ∧ 4 + 4 ≤ (str ":S00G0N;").length ∧ isHex ((str ":S00G0N;").getD 4 0) = false)
      ∧ ((str ":S0020Q;").getD 6 0 ≠ 0x4E ∧ (str ":S0020Q;").getD 6 0 ≠ 0x52)
      ∧ ((str ":S0020N0G;").getD 6 0 = 0x4E ∧ isHex ((str ":S0020N0G;").getD 8 0) = false)
      ∧ ((str ":S0020N0;").length - 4 - 4) % 2 = 1 ∧ 16 < (str ":S0020N010203040506070809;").length - 4 - 4
      ∧ (str ":S0020N0102030405060708;").length - 4 - 4 = 16 := by decide

theorem witness_CodecRoundTrip :
    encodeArgsOk false 0x7FF [1, 2, 3, 4, 5, 6, 7] = true ∧ encodeArgsOk true 0xFFFFFFFF [] = true := by decide

theorem witness_ReencodingReproducesExactly :
    checkShape (str ":S0020N0D;") = .ok ⟨false, 0x0020, false, [0x0D]⟩
      ∧ checkShape (str ":Sb020N9a;") = .ok ⟨false, 0xB020, false, [0x9A]⟩
      ∧ checkShape (str ":S003FR0D;") = .ok ⟨false, 0x003F, true, [0x0D]⟩ := by decide

theorem witness_ReservedIdentifierBitsIgnored :
    encodeArgsOk false 0x7FF [] = true ∧ Config.g1.tx = Config.defaultTx ∧ (List.replicate 8 (0 : Byte)).length ≤ 8 := by decide

theorem witness_ExtendedIdentifierCarriedRaw :
    (List.replicate 8 (0 : Byte)).length ≤ 8 ∧ Config.g1.tx = Config.defaultTx ∧ recExt Config.g1 (List.replicate 13 0xFF) = true
      ∧ 4 ≤ (List.replicate 13 (0xFF : Byte)).length := by decide

theorem witness_HexDigitCaseIgnoredOnInput :
    checkShape (str ":SB020N9A;") = .ok ⟨false, 0xB020, false, [0x9A]⟩
      ∧ (str ":Sb020N9a;").length = (str ":SB020N9A;").length
      ∧ ∀ i, i < (str ":SB020N9A;").length → (str ":Sb020N9a;").getD i 0 = (str ":SB020N9A;").getD i 0
        ∨ (isHex ((str ":Sb020N9a;").getD i 0) = true ∧ isHex ((str ":SB020N9A;").getD i 0) = true
          ∧ hexVal ((str ":Sb020N9a;").getD i 0) = hexVal ((str ":SB020N9A;").getD i 0)) := by decide

theorem witness_HeaderPackingInverse : (3 < 4 ∧ 3 < 4 ∧ 127 < 128) ∧ 2047 < 2048 := by decide

theorem witness_IdPairsAndBusAddresses : IdPair.clean ⟨255, 224⟩ = true ∧ 127 < 128 ∧ 126 < 127 := by decide

theorem witness_RecordTextWellFormed :
    recExt Config.g1 (rxRec 0xB0 0x20 1 [0x0D]) = false ∧ recExt Config.g1 (rxRec 0x12 0x0A 0 []) = true
      ∧ recRtr Config.g1 (rxRec 0xB0 0x20 1 [0x0D]) = false ∧ recRtr Config.g1 (rxRec 0x00 0x30 0 []) = true := by decide

theorem witness_RecordLayouts :
    (List.replicate 8 (0 : Byte)).length ≤ 8 ∧ Config.g1.tx = Config.defaultTx ∧ Config.g1.rx = Config.defaultRx
      ∧ (rxRec 0xB0 0x20 1 [0x0D]).length = 13 ∧ recRtr Config.g1 (rxRec 0x00 0x30 0 []) = true
      ∧ recRtr Config.g1 (rxRec 0xB0 0x20 1 [0x0D]) = false ∧ idMatch Config.g1 ⟨0xB0, 0x20⟩ (rxRec 0xB0 0x20 1 [0x0D]) = true := by
  decide

theorem witness_EncodeReturnsWireString :
    State.reset.ctx = .poll ∧ State.reset.poll = .idle ∧ (0x7FF : BitVec 32).toNat ≤ 0x7FF ∧ (List.replicate 7 (0 : Byte)).length ≤ 7
      ∧ ¬ (0x800 : BitVec 32).toNat ≤ 0x7FF ∧ ¬ (List.replicate 8 (0 : Byte)).length ≤ 7 := by decide

theorem witness_DecodeReturnsFrame :
    State.reset.ctx = .poll ∧ State.reset.poll = .idle ∧ checkShape (str ":S0020N") = .error .frameTooShort
      ∧ checkShape (str ":S0020N;") = .ok ⟨false, 0x0020, false, []⟩ := by decide

theorem witness_WireFormatsAccepted : (List.replicate 8 (0 : Byte)).length ≤ 8 ∧ State.reset.ctx = .poll ∧ State.reset.poll = .idle := by decide

theorem witness_OpcodeBytesAreOpaqueData : (List.replicate 7 (0 : Byte)).length ≤ 7 ∧ State.reset.ctx = .poll ∧ State.reset.poll = .idle := by decide

theorem witness_PseudoFramesCarrySelfId : handling.ctx = .irq ∧ handling.drv.mode = .ready := by decide

/-- `Obligations.TransactionsMadeOnlyWhereCalled`: a state under each place. -/
theorem witness_TransactionsMadeOnlyWhereCalled :
    (polling .initReset).ctx = .poll ∧ (polling .initReset).poll = .initReset ∧ (polling .modeWrite).poll = .modeWrite
      ∧ (polling (.sendAbort .second)).poll = .sendAbort .second ∧ handling.ctx = .irq ∧ handling.drv.mode = .ready
      ∧ handling.drv.absent = false ∧ (polling (.sendRequest .first)).poll = .sendRequest .first
      ∧ (polling (.sendRequest .second)).poll = .sendRequest .second ∧ (polling (.sendLoad [])).poll = .sendLoad []
      ∧ (polling .initStatus).poll = .initStatus ∧ (polling (.modeRead 0)).poll = .modeRead 0
      ∧ (polling .sendReadback).poll = .sendReadback ∧ (polling (.sendPoll .first 0)).poll = .sendPoll .first 0
      ∧ (polling (.initWrites [(0x2A, 3)])).poll = .initWrites ((0x2A, 3) :: []) := by decide

theorem witness_BusReadsReturnTheAnswer :
    (polling .initStatus).calls (.regRead 0x0E) = true ∧ (polling .sendReadback).calls (.regRead 0x30) = true
      ∧ (answering [0x80, 1] (polling .initStatus)).env.answers = 0x80 :: [1] ∧ handling.calls .rxRead = true
      ∧ (answering (List.replicate 13 0 ++ [1]) handling).env.answers = List.replicate 13 0 ++ [1]
      ∧ (List.replicate 13 (0 : Byte)).length = 13 := by decide

theorem witness_BusWritesSendTheirBytes :
    (polling (.initWrites [(0x2A, 3)])).calls (.regWrite 0x2A 3) = true ∧ (polling .initReset).calls .chipReset = true
      ∧ handling.calls (.txLoad (List.replicate 13 0)) = true ∧ (polling (.sendLoad [])).calls (.txLoad []) = true
      ∧ handling.calls (.txRequest .high) = true ∧ (polling (.sendRequest .second)).calls (.txRequest .retry) = true
      ∧ (polling (.sendAbort .first)).calls .txAbort = true := by decide

theorem witness_BusWritesStoreOnlyTheirBytes :
    (look (exec (.regWrite 255 1) (polling (.initWrites [(255, 1)]))) (fun _ => ())).isSome
      ∧ (look (exec (.txRequest .retry) (polling (.sendRequest .second))) (fun _ => ())).isSome
      ∧ (look (exec .txAbort (polling (.sendAbort .first))) (fun _ => ())).isSome
      ∧ (look (exec (.txLoad (List.replicate 13 0)) handling) (fun _ => ())).isSome := by decide

/-- `Obligations.ModeSetOutcomes`: POLL alone reaches `Ok` and `Timeout`. -/
theorem witness_ModeSetOutcomes :
    (polling .modeWrite).ctx = .poll ∧ (polling .modeWrite).poll = .modeWrite
      ∧ look (modeSetRun 9 (ticking [0] (answering [0x00] (polling .modeWrite)))) (·.poll) = some .initState
      ∧ look (modeSetRun 9 (ticking [0, 100] (answering [0x80] (polling .modeWrite)))) (fun t => (t.poll, t.result))
        = some (.idle, some (.inited (.error .controllerNotPresent)))
      ∧ PollPos.initState.inMode = false ∧ PollPos.idle.inMode = false := by decide

theorem witness_OnlyOwnTransactions :
    WritesOk (polling .sendGiveUp) ∧ WritesOk (moving [.run] (polling .sendGiveUp))
      ∧ (look (step (moving [.run] (polling .sendGiveUp))) (fun _ => ())).isSome
      ∧ (look (pollContinue (polling .sendGiveUp)) (fun _ => ())).isSome
      ∧ (look (exec .irqHandler (received (rxRec 0xB0 0x20 0 []))) (fun _ => ())).isSome
      ∧ (look (exec .runEnumeration (ticking [100] (expiring []))) (fun _ => ())).isSome := by
  refine ⟨?_, ?_, by decide, by decide, by decide, by decide⟩ <;> (intro ws h; cases h)

theorem witness_InitializeRefusals :
    live.ctx = .poll ∧ live.poll = .idle ∧ live.drv.mode = .ready ∧ State.reset.drv.mode = .uninit
      ∧ ∀ ws, (12345678, ws) ∉ State.reset.params.oscTable := by
  refine ⟨by decide, by decide, by decide, by decide, fun ws h => ?_⟩
  simp [State.reset, State.powerOn, Config.params, Config.g1OscTable] at h

/-- `Obligations.InitializeOutcomes`: POLL alone reaches the three outcomes (95_test_vectors B9 rows 1, 3, 5). -/
theorem witness_InitializeOutcomes :
    State.reset.ctx = .poll ∧ State.reset.poll = .idle ∧ State.reset.drv.mode = .uninit
      ∧ State.reset.params.oscTable.lookup 16000000 = some [(0x2A, 0x03), (0x29, 0xF0), (0x28, 0x86)]
      ∧ look (callRun (.initDriver 1 2 3 16000000) 20 (ticking [0] (answering [0x80, 0x00] State.reset)))
          (fun t => (t.poll, t.result)) = some (.idle, some (.inited (.ok ())))
      ∧ look (callRun (.initDriver 1 2 3 16000000) 20 (answering [0x00] State.reset)) (fun t => (t.poll, t.result))
          = some (.idle, some (.inited (.error .controllerNotPresent)))
      ∧ look (callRun (.initDriver 1 2 3 16000000) 24 (ticking [0, 0, 50, 50] (answering [0x80, 0x80, 0x80, 0x80] State.reset)))
          (fun t => (t.poll, t.result)) = some (.idle, some (.inited (.error .controllerNotPresent))) := by
  refine ⟨by decide, by decide, by decide, by decide, by decide, by decide, by decide⟩

/-- `Obligations.InitializeFinishesWhenClockAdvances`, both clauses. -/
theorem witness_InitializeFinishesWhenClockAdvances :
    let s := ticking (List.replicate 102 1) State.reset
    let m := ticking (List.replicate 102 1) (polling .modeWrite)
    s.ctx = .poll ∧ s.params.tModeMs + 2 ≤ s.env.ticks.length ∧ (∀ d ∈ s.env.ticks, 1 ≤ d) ∧ s.poll = .idle
      ∧ s.drv.mode = .uninit ∧ (s.params.oscTable.lookup 8000000).isSome = true
      ∧ m.ctx = .poll ∧ m.params.tModeMs + 2 ≤ m.env.ticks.length ∧ (∀ d ∈ m.env.ticks, 1 ≤ d) ∧ m.poll = .modeWrite := by
  have h : ∀ d ∈ List.replicate 102 1, 1 ≤ d := fun d hd => by rw [(List.mem_replicate.1 hd).2]
  exact ⟨by decide, Nat.le_of_eq List.length_replicate.symm, h, by decide, by decide, by decide, by decide,
    Nat.le_of_eq List.length_replicate.symm, h, by decide⟩

theorem witness_DriverOperationsNeedReady :
    State.reset.drv.mode = .uninit ∧ State.reset.ctx = .poll ∧ State.reset.poll = .idle
      ∧ ({ State.reset with ctx := .irq }).drv.mode = .uninit ∧ ({ State.reset with ctx := .timer }).drv.mode = .uninit := by
  decide

theorem witness_SendChecksShapeFirst :
    live.ctx = .poll ∧ live.poll = .idle ∧ live.drv.mode = .ready ∧ checkShape (str "bad") = .error .frameTooShort
      ∧ checkShape (str ":S0020N;") = .ok ⟨false, 0x0020, false, []⟩ := by decide

theorem witness_SendWhileAbsent :
    let s := { live with drv := { live.drv with absent := true } }
    s.ctx = .poll ∧ s.poll = .idle ∧ s.drv.mode = .ready ∧ s.drv.absent = true ∧ checkShape (str ":S0020N0;") = .error .malformedFrame
      ∧ checkShape (str ":S0020N;") = .ok ⟨false, 0x0020, false, []⟩ := by decide

/-- `Obligations.SendOutcomes` and `Obligations.SendFrame`: POLL alone reaches each row of 43_send R190 (95_test_vectors B8 rows 1,
4, 7, 9, and program P4's timeout). -/
theorem witness_SendOutcomes_early :
    live.ctx = .poll ∧ live.poll = .idle ∧ live.drv.mode = .ready ∧ live.drv.irqMask = false
      ∧ look (callRun (.send (str ":S0020N")) 20 live) (fun t => (t.poll, t.result))
        = some (.idle, some (.sent (.error .frameTooShort)))
      ∧ look (callRun (.send (str ":S0020N;")) 20 { live with drv := { live.drv with absent := true } })
          (fun t => (t.poll, t.result)) = some (.idle, some (.sent (.error .controllerNotPresent)))
      ∧ look (callRun (.send (str ":S0020N;")) 20 (answering [0x00] live)) (fun t => (t.poll, t.result, t.drv.absent))
        = some (.idle, some (.sent (.error .controllerNotPresent)), true) := by
  refine ⟨by decide, by decide, by decide, by decide, by decide, by decide, by decide⟩

/-- The rows of 43_send R190 in which the controller takes the request. -/
theorem witness_SendOutcomes_late :
    look (callRun (.send (str ":S0020N;")) 20 (ticking [0] (answering [0x0B, 0x03] live))) (fun t => (t.poll, t.result))
        = some (.idle, some (.sent (.ok ())))
      ∧ look (callRun (.send (str ":S0020N;")) 20 (ticking [0, 100, 0] (answering [0x0B, 0x0B, 0x02] live)))
          (fun t => (t.poll, t.result)) = some (.idle, some (.sent (.ok ())))
      ∧ look (callRun (.send (str ":S0020N;")) 20 (ticking [0, 100, 1, 100] (answering [0x0B, 0x0B, 0x0A] live)))
          (fun t => (t.poll, t.result)) = some (.idle, some (.sent (.error .transmitTimeout))) := by
  refine ⟨by decide, by decide, by decide⟩

theorem witness_SendFinishesWhenClockAdvances :
    let s := ticking (List.replicate 202 1) live
    s.ctx = .poll ∧ s.poll = .idle ∧ s.drv.mode = .ready ∧ 202 ≤ s.env.ticks.length ∧ ∀ d ∈ s.env.ticks, 1 ≤ d := by
  refine ⟨by decide, by decide, by decide, Nat.le_of_eq List.length_replicate.symm, fun d hd => ?_⟩
  rw [(List.mem_replicate.1 hd).2]

theorem witness_TxFireLoadsAndRequests :
    5 ≤ (List.replicate 5 (0 : Byte)).length ∧ (List.replicate 13 (0 : Byte)).length ≤ 13 ∧ handling.ctx = .irq
      ∧ handling.drv.mode = .ready ∧ handling.drv.absent = false ∧ ({ live.drv with absent := true }).absent = true
      ∧ live.ctx ≠ .irq := by decide

/-- `Obligations.HandlerDecisionTable`: a record under each row (95_test_vectors B5 rows 2, 5, 4, 6, 7, 9, 1, 8). -/
theorem witness_HandlerDecisionTable :
    (received (rxRec 0x00 0x30 0 [])).ctx = .irq ∧ (received (rxRec 0x00 0x30 0 [])).deliverable = true ∧ live.drv.wr < live.drv.slots
      ∧ (enumerating [] (rxRec 0x00 0x70 0 [])).deliverable = true
      ∧ (received (rxRec 0x00 0x30 0 [])).rxRead.1 = rxRec 0x00 0x30 0 []
      ∧ [rxRec 0x00 0x30 0 [], rxRec 0x00 0x70 0 [], rxRec 0x00 0x40 0 [], rxRec 0x00 0x20 0 [], rxRec 0xB0 0x20 1 [0x0D],
          rxRec 0x00 0x20 1 [0x0D]].map
        (fun r => (recRtr Config.g1 r, idMatch Config.g1 ⟨0, 32⟩ r, payloadLen Config.g1 r))
        = [(true, true, 0), (true, false, 0), (false, false, 0), (false, true, 0), (false, false, 1), (false, true, 1)] := by
  refine ⟨by decide, by decide, by decide, by decide, by decide, by decide⟩

theorem witness_HandlerIgnoresReadIndex :
    (look (exec .irqHandler (received (rxRec 0xB0 0x20 0 []))) (fun _ => ())).isSome := by decide

theorem witness_HandlerRunsWhereDeliverable :
    (received []).drv.wr < (received []).drv.slots ∧ (received []).ctx = .irq ∧ (received []).drv.mode = .ready
      ∧ (received []).drv.irqEnabled = true ∧ (received []).drv.irqPend = true ∧ (received []).drv.irqMask = false := by
  decide

theorem witness_ReceiveReturnsOldestSlot :
    live.ctx = .poll ∧ live.poll = .idle ∧ live.drv.mode = .ready ∧ live.drv.rd < live.drv.slots ∧ live.drv.wr = live.drv.rd
      ∧ (live.enqueue (rxRec 0xB0 0x20 0 [])).drv.wr ≠ (live.enqueue (rxRec 0xB0 0x20 0 [])).drv.rd := by decide

theorem witness_AvailableCountsUnread :
    live.ctx = .poll ∧ live.poll = .idle ∧ live.drv.mode = .ready ∧ live.drv.wr < live.params.n ∧ live.drv.rd < live.params.n := by decide

/-- `Obligations.ReceiveInOrderAfterEnqueues`, at the least capacity and with an overflow. -/
theorem witness_ReceiveInOrderAfterEnqueues :
    let s := { live with params := { live.params with n := 2 }, drv := { live.drv with slots := 2 } }
    s.ctx = .poll ∧ s.poll = .idle ∧ s.drv.mode = .ready ∧ 2 ≤ s.params.n ∧ s.drv.slots = s.params.n ∧ s.drv.wr < s.params.n
      ∧ s.drv.rd = s.drv.wr ∧ ∀ r ∈ List.replicate 3 (rxRec 0xB0 0x20 0 []), r.length = 13 := by decide

/-- `Obligations.ReceiveWholeUnderInterleaving`: with one enqueue between the micro-steps (95_test_vectors B6, torn record, the last
sentence). -/
theorem witness_ReceiveWholeUnderInterleaving :
    let s := { live.enqueue (rxRec 0xB0 0x20 2 [0x98, 0x01]) with poll := .recvCompare 1 }
    let ms := List.replicate 6 RingMove.poll ++ .enqueue (rxRec 0xB0 0x40 2 [0x98, 0x02]) :: List.replicate 10 .poll
    s.poll = .recvCompare s.drv.wr ∧ s.drv.mode = .ready ∧ s.drv.slots = s.params.n ∧ s.drv.wr < s.params.n
      ∧ s.drv.rd < s.params.n ∧ s.drv.wr ≠ s.drv.rd ∧ (∀ r ∈ enqueuedBy ms, r.length = 13)
      ∧ (enqueuedBy ms).length < s.params.n - ringCount s.params.n s.drv.wr s.drv.rd + 1
      ∧ look (ringRun ms s) (·.poll) = some .idle := by
  refine ⟨by decide, by decide, by decide, by decide, by decide, by decide, by decide, by decide, by decide⟩

/-- `Obligations.EnumerationAdoptsFirstFree` (95_test_vectors B7 rows 1 and 2). -/
theorem witness_EnumerationAdoptsFirstFree :
    let s := ticking [100] (expiring [⟨0, 32⟩, ⟨0, 64⟩])
    s.ctx = .timer ∧ s.drv.mode = .ready ∧ s.drv.timerArmed = true ∧ s.drv.timerDeadline ≤ s.now.1 ∧ idOf 3 ∉ s.drv.seen
      ∧ ∀ b, 1 ≤ b → b < 3 → idOf b ∈ s.drv.seen := by
  refine ⟨by decide, by decide, by decide, by decide, by decide, fun b h1 h2 => ?_⟩
  interval_cases b <;> decide

/-- `Obligations.EnumerationAllTaken` (95_test_vectors B7 row 9). -/
theorem witness_EnumerationAllTaken :
    let s := ticking [100] (expiring candidates)
    s.ctx = .timer ∧ s.drv.mode = .ready ∧ s.drv.timerArmed = true ∧ s.drv.timerDeadline ≤ s.now.1
      ∧ ∀ a, 1 ≤ a → a ≤ 127 → idOf a ∈ s.drv.seen := by
  refine ⟨rfl, rfl, rfl, by decide, fun a h1 h2 => ?_⟩
  simp only [ticking, expiring, enumerating, answering, candidates, List.mem_map]
  exact ⟨a, by simp [Config.enumFirst, Config.enumLast]; omega, rfl⟩

/-- `Obligations.TimerStepEnabledExactlyWhenDue` (95_test_vectors B10 rows 7 and 8). -/
theorem witness_TimerStepEnabledExactlyWhenDue :
    (look (exec .runEnumeration (ticking [100] (expiring []))) (fun _ => ())).isSome
      ∧ refusal (exec .runEnumeration (ticking [99] (expiring []))) = some .timerNotDue := by decide

/-- `Obligations.StorageSettlesInOrder`: a state under each clause. -/
theorem witness_StorageSettlesInOrder :
    let s : State := { State.reset with env := { State.reset.env with handed := [⟨0, 96⟩], stores := [true] } }
    State.reset.env.handed = [] ∧ s.env.handed = ⟨0, 96⟩ :: [] ∧ s.env.stores = true :: []
      ∧ (polling .initState).poll = .initState ∧ ({ s.env with stores := [false] }).stores = false :: [] := by decide

theorem witness_FallingEdgePending :
    State.reset.drv.irqEnabled = false ∧ live.drv.irqEnabled = true ∧ live.drv.irqMask = false
      ∧ ({ live.drv with irqMask := true }).irqMask = true ∧ ({ live.params with maskedEdge := .drop }).maskedEdge = .drop := by
  decide

/-- `Obligations.StepRunsDecodedOperation`: a state under each clause. -/
theorem witness_StepRunsDecodedOperation :
    let delivering := moving [.irq] { received [] with ctx := .poll }
    let expired := moving [.timer] (ticking [100] { expiring [] with ctx := .poll })
    ((moving [.run] live).takeTurn.1 = .run ∧ live.ctx = .poll ∧ live.poll = .idle)
      ∧ decode (str ":S0020N;" ++ [0x05]) = .ok (.wireSN 0x0020 [], [0x05]) ∧ State.reset.program = []
      ∧ decode [0x06] = .error (.unknownKey 0x06) ∧ (polling .sendGiveUp).poll ≠ .idle
      ∧ (delivering.takeTurn.1 = .irq ∧ delivering.ctx = .poll ∧ delivering.deliverable = true)
      ∧ ((moving [.irq] live).takeTurn.1 = .irq ∧ live.deliverable = false)
      ∧ (expired.takeTurn.1 = .timer ∧ expired.ctx = .poll
        ∧ (look (exec .runEnumeration { expired.takeTurn.2 with ctx := .timer }) (fun _ => ())).isSome)
      ∧ ((moving [.timer] live).takeTurn.1 = .timer
        ∧ refusal (exec .runEnumeration { (moving [.timer] live).takeTurn.2 with ctx := .timer }) = some .timerNotDue)
      ∧ decode (tableStream 8 0x8) = .ok (.irqHandler, List.replicate 32 0) ∧ callContext .irqHandler = .irq := by
  refine ⟨by decide, by decide, by decide, by decide, by decide, by decide, by decide, by decide, by decide, by decide, by decide⟩

/-- `Obligations.ContextTable`: a state under each clause. -/
theorem witness_ContextTable :
    handling.ctx ≠ .poll ∧ live.ctx = .poll ∧ (polling .sendGiveUp).poll ≠ .idle ∧ live.ctx ≠ .irq ∧ live.ctx ≠ .timer
      ∧ (look (step (moving [.irq] { received (rxRec 0xB0 0x20 0 []) with ctx := .poll })) (·.drv.wr)) = some 1 := by decide

theorem witness_SoleWriters :
    live.drv.mode = .ready ∧ PollPos.inInit .sendGiveUp = false
      ∧ (look (pollContinue (polling .sendGiveUp)) (fun _ => ())).isSome
      ∧ (look (exec .irqHandler (received (rxRec 0xB0 0x20 0 []))) (fun _ => ())).isSome
      ∧ (look (exec .runEnumeration (ticking [100] (expiring []))) (fun _ => ())).isSome
      ∧ (look (exec .available live) (fun _ => ())).isSome
      ∧ (look (step (moving [.settle] live)) (fun _ => ())).isSome ∧ live.ctx = .poll
      ∧ [Turn.run, .irq, .timer, .edge, .settle].map (fun u => (moving [u] live).takeTurn.1)
        = [.run, .irq, .timer, .edge, .settle] := by decide

theorem witness_ErrorsByOperation :
    decodeText (str "bad") = .error .frameTooShort
      ∧ look (exec (.send (str "bad")) live) (·.result) = some (some (.sent (.error .frameTooShort)))
      ∧ look (pollContinue { live with poll := .sendGiveUp }) (fun t => (t.poll, t.result))
        = some (.idle, some (.sent (.error .transmitTimeout)))
      ∧ look (pollContinue (answering [0xFF] { State.reset with poll := .initStatus })) (fun t => (t.poll, t.result))
        = some (.idle, some (.inited (.error .controllerNotPresent))) := by decide

/-- The invariants hold of a live driver whose controller is absent, with a slot being copied out. -/
def copying : State :=
  { live.enqueue (rxRec 0xB0 0x20 0 []) with
    poll := .recvCopy [0xB0]
    env := { live.env with turns := [.run] } }

theorem copying_memOk : MemOk copying := by unfold MemOk; decide

theorem copying_maskOk : MaskOk copying := by unfold MaskOk; decide

theorem copying_lifeOk : LifeOk copying where
  params := by decide
  given _ := by decide
  uninit h := absurd h (by decide)
  ready _ := by decide
  ring _ := by decide
  window := by decide

theorem copying_idOk : IdOk copying where
  default := by decide
  stored p h := by cases h
  handed p h := by cases h
  seen := by decide
  cap := by decide
  own _ := by decide

theorem copying_slotWritten : SlotWritten copying 0 := by unfold SlotWritten; decide

theorem copying_below (k : Nat) (h : k < copying.drv.wr) : SlotWritten copying k := by
  have : k = 0 := by
    have : copying.drv.wr = 1 := by decide
    omega
  subst this
  exact copying_slotWritten

theorem copying_slotsOk : SlotsOk copying where
  registering h := absurd h (by decide)
  below _ := .inr ⟨by decide, by decide, copying_below⟩
  compare w0 h := by cases h
  copy b h := by
    cases h
    exact ⟨.inr ⟨by decide, by decide, copying_below⟩, by decide⟩
  advance b h := by cases h

/-- The step of that state, for the statements about every step. -/
theorem witness_step : (look (step copying) (fun _ => ())).isSome ∧ copying.takeTurn.1 ≠ .restart ∧ copying.drv.mode = .ready := by
  decide

/-- `Obligations.AbsentAndReadyAreOneWay`. -/
theorem witness_AbsentAndReadyAreOneWay :
    LifeOk copying ∧ copying.drv.mode = .ready ∧ copying.takeTurn.1 ≠ .restart
      ∧ (look (step copying) (fun _ => ())).isSome :=
  ⟨copying_lifeOk, witness_step.2.2, witness_step.2.1, witness_step.1⟩

/-- `Obligations.ClockNeverDecreases` and `Obligations.ChipSelectRestsAndHistoryGrows`. -/
theorem witness_ClockNeverDecreases_ChipSelectRestsAndHistoryGrows :
    (look (step copying) (fun _ => ())).isSome ∧ copying.chip.cs = false := by decide

/-- `Obligations.StepKeepsMemoryCanonical`, `StepKeepsMaskDiscipline`, `StepKeepsLifecycle`, `StepKeepsIdentifiers`. -/
theorem witness_StepKeeps :
    MemOk copying ∧ MaskOk copying ∧ LifeOk copying ∧ IdOk copying ∧ (look (step copying) (fun _ => ())).isSome :=
  ⟨copying_memOk, copying_maskOk, copying_lifeOk, copying_idOk, witness_step.1⟩

theorem witness_ReceiveReadsOnlyWrittenSlots : LifeOk copying ∧ SlotsOk copying ∧ copying.poll = .recvCopy [0xB0] :=
  ⟨copying_lifeOk, copying_slotsOk, rfl⟩

theorem witness_PowerOnMeetsInvariants : Config.params.wf = true := by decide

end Sys2Proof.Tests
end

section
/-! SUPPORT. The context table (60_exceptions R260): what each guard refuses, which rows stand behind which guard, and the context
a step ends in. -/

namespace Sys2Proof.Machine

/-! ### What the guards refuse -/

theorem State.whenIn_refused {s : State} {c : Context} (h : s.ctx ≠ c) (k : Out) :
    s.whenIn c k = .refused .wrongContext := if_neg h

theorem State.whenIdle_wrongContext {s : State} (h : s.ctx ≠ .poll) (k : Out) :
    s.whenIdle k = .refused .wrongContext := State.whenIn_refused h _

theorem State.whenIdle_pollBusy {s : State} (hc : s.ctx = .poll) (hp : s.poll ≠ .idle) (k : Out) :
    s.whenIdle k = .refused .pollBusy := (if_pos hc).trans (if_neg hp)

/-! ### Which rows stand behind which guard -/

/-- The rows that POLL's code calls, with nothing else of POLL in progress: its six operations, and the wire formats and opcode
bytes (log 9). The rows left out are the handlers', and the bus transactions, which are made inside an operation. -/
def isPollOperation : Instr → Bool
  | .irqHandler | .txFire _ | .ownId | .collisionRtr | .runEnumeration => false
  | .regRead _ | .regWrite _ _ | .chipReset | .rxRead | .txLoad _ | .txRequest _ | .txAbort | .modeSet => false
  | _ => true

/-- The rows that the handler's code calls, the bus transactions apart. -/
def isHandlerOperation : Instr → Bool
  | .irqHandler | .txFire _ | .ownId | .collisionRtr => true
  | _ => false

theorem exec_eq_whenIdle {i : Instr} (h : isPollOperation i = true) (s : State) : ∃ k, exec i s = s.whenIdle k := by
  cases i with
  | irqHandler | txFire | ownId | collisionRtr | runEnumeration => cases h
  | regRead | regWrite | chipReset | rxRead | txLoad | txRequest | txAbort | modeSet => cases h
  | _ => exact ⟨_, rfl⟩

theorem exec_eq_whenIn_irq {i : Instr} (h : isHandlerOperation i = true) (s : State) :
    ∃ k, exec i s = s.whenIn .irq k := by
  cases i with
  | irqHandler | txFire | ownId | collisionRtr => exact ⟨_, rfl⟩
  | _ => cases h

theorem exec_pollOperation_wrongContext {i : Instr} {s : State} (hi : isPollOperation i = true) (h : s.ctx ≠ .poll) :
    exec i s = .refused .wrongContext := by
  obtain ⟨k, hk⟩ := exec_eq_whenIdle hi s
  rw [hk, State.whenIdle_wrongContext h]

theorem exec_pollOperation_pollBusy {i : Instr} {s : State} (hi : isPollOperation i = true) (hc : s.ctx = .poll)
    (hp : s.poll ≠ .idle) : exec i s = .refused .pollBusy := by
  obtain ⟨k, hk⟩ := exec_eq_whenIdle hi s
  rw [hk, State.whenIdle_pollBusy hc hp]

theorem exec_handlerOperation_wrongContext {i : Instr} {s : State} (hi : isHandlerOperation i = true) (h : s.ctx ≠ .irq) :
    exec i s = .refused .wrongContext := by
  obtain ⟨k, hk⟩ := exec_eq_whenIn_irq hi s
  rw [hk, State.whenIn_refused h]

theorem exec_runEnumeration_wrongContext {s : State} (h : s.ctx ≠ .timer) :
    exec .runEnumeration s = .refused .wrongContext := State.whenIn_refused h _

/-! ### The context a step ends in -/

@[simp] theorem State.fallingEdge_ctx (s : State) : s.fallingEdge.ctx = s.ctx := by
  unfold State.fallingEdge
  split <;> rfl

@[simp] theorem State.restart_ctx (s : State) : s.restart.ctx = .poll := rfl

/-- A handler's or a callback's return is to POLL's code (R254, R256); every other operation returns to the code that called it. -/
theorem exec_ctx {i : Instr} {s t : State} (h : exec i s = .next t) :
    if i = .irqHandler ∨ i = .runEnumeration then t.ctx = .poll else t.ctx = s.ctx := by
  rcases exec_next h with ⟨b, c, l, hz, rfl, -, -, -, -, rfl⟩ | ⟨rfl, -, -, hbody⟩ | ⟨rfl, -, -, -, rfl⟩ | ⟨hirq, htimer, hf⟩
  · simp
  · simpa using (irqBody_frame hbody).ctx
  · simpa using (timerFire_frame s.now.2).ctx
  · simpa [hirq, htimer] using hf.ctx

theorem exec_ctx_poll {i : Instr} {s t : State} (hs : s.ctx = .poll) (h : exec i s = .next t) : t.ctx = .poll := by
  have hc := exec_ctx h
  split at hc
  · exact hc
  · exact hc.trans hs

theorem runTurn_ctx_poll {s t : State} (hs : s.ctx = .poll) (h : runTurn s = .next t) : t.ctx = .poll := by
  rcases runTurn_next h with ⟨-, rfl⟩ | ⟨-, i, rest, -, hexec⟩ | ⟨-, -, hmicro⟩
  · exact hs
  · exact exec_ctx_poll (by simpa using hs) hexec
  · exact (pollContinue_frame hmicro).ctx.trans hs

/-- POLL's context at a boundary is POLL's at the next one, whoever moves. -/
theorem step_ctx_poll {s t : State} (hs : s.ctx = .poll) (h : step s = .next t) : t.ctx = .poll := by
  rcases step_next h with ⟨-, hrun⟩ | ⟨-, ⟨-, hexec⟩ | rfl⟩ | ⟨-, ⟨-, hexec⟩ | rfl⟩ | ⟨-, rfl⟩ | ⟨-, rfl⟩ | ⟨-, rfl⟩
  · exact runTurn_ctx_poll (by simpa using hs) hrun
  · simpa using exec_ctx hexec
  · simpa using hs
  · simpa using exec_ctx hexec
  · simpa using hs
  · simpa using hs
  · simpa using hs
  · simp

/-- Settles O48: each listed row stands behind its context's guard, and `step_ctx_poll` keeps POLL's context. -/
theorem contextTable : Obligations.ContextTable := by
  refine ⟨?_, fun s t hs h => step_ctx_poll hs h⟩
  intro s w ext id op d r b c l hz f x ops
  have hops : ∀ i ∈ ops, isPollOperation i = true := List.all_eq_true.mp rfl
  have hirq : ∀ i ∈ [Instr.irqHandler, .txFire r, .ownId, .collisionRtr], isHandlerOperation i = true :=
    List.all_eq_true.mp rfl
  exact ⟨fun hc i hi => exec_pollOperation_wrongContext (hops i hi) hc,
    fun hc hp i hi => exec_pollOperation_pollBusy (hops i hi) hc hp,
    fun hc i hi => exec_handlerOperation_wrongContext (hirq i hi) hc,
    exec_runEnumeration_wrongContext⟩

end Sys2Proof.Machine
end

section
/-! SUPPORT. The wire grammar as the shape check's domain (30_encoding R90, R103). -/

namespace Sys2Proof.Machine

/-- The two markers and the identifier width each announces. -/
theorem idWidth_eq_some_iff {m : Byte} {n : Nat} :
    idWidth m = some n ↔ (m = chS ∧ n = 4) ∨ (m = chX ∧ n = 8) := by
  unfold idWidth
  split
  case isTrue hS => subst hS; simp [chS, chX, eq_comm]
  case isFalse hS =>
    split
    case isTrue hX => subst hX; simp [chS, chX, eq_comm]
    case isFalse hX => simp [hS, hX]

/-- Settles O3: `checkShape_ok_form` reads the grammar off an accepted string, `checkShape_form` accepts every string of it. -/
theorem acceptedExactlyByGrammar : Obligations.AcceptedExactlyByGrammar := by
  intro w
  constructor
  · rintro ⟨c, hc⟩
    obtain ⟨m, k, ids, data, n, hw, hm, hn, hk, hids, hdata, hle, heven⟩ := checkShape_ok_form w c hc
    subst hn
    exact ⟨m, k, ids, data, hw, idWidth_eq_some_iff.mp hm, hk, hids, hdata, hle, heven⟩
  · rintro ⟨m, k, ids, data, rfl, hm, hk, hids, hdata, hle, heven⟩
    have h4 : 4 ≤ ids.length := by omega
    exact ⟨_, checkShape_form m k ids data _ (idWidth_eq_some_iff.mpr hm) rfl hk h4 hids hdata hle heven⟩

end Sys2Proof.Machine
end

section
/-! SUPPORT. Standard identifier fields, id pairs and bus addresses as numbers (30_encoding R106). -/

namespace Sys2Proof.Machine

/-! ### The flag mask -/

/-- Masking a low byte rounds it down to a multiple of 32. -/
theorem toNat_and_flagMask : ∀ y : Byte, (y &&& 0xE0).toNat = y.toNat / 32 * 32 := by decide

/-- A pair is clean exactly when the mask leaves its low byte alone. -/
theorem IdPair.clean_iff (p : IdPair) : p.clean = true ↔ p.lo &&& 0xE0 = p.lo := by
  have h : ∀ y : Byte, (y &&& 0x1F == 0) = true ↔ y &&& 0xE0 = y := by decide
  exact h p.lo

/-! ### The pair of a field -/

theorem idPairOf_hi_toNat (f : BitVec 16) : (idPairOf f).hi.toNat = f.toNat / 256 := by
  have hf := f.isLt
  simp only [idPairOf, BitVec.extractLsb'_toNat, Nat.shiftRight_eq_div_pow]
  omega

theorem idPairOf_lo_toNat (f : BitVec 16) : (idPairOf f).lo.toNat = f.toNat % 256 / 32 * 32 := by
  simp only [idPairOf, toNat_and_flagMask, BitVec.extractLsb'_toNat, Nat.shiftRight_zero]

theorem idPairOf_clean (f : BitVec 16) : (idPairOf f).clean = true := by
  rw [IdPair.clean_iff, idPairOf, BitVec.and_assoc, BitVec.and_self]

/-- A field is its high byte, then its low byte. -/
theorem extract_hi_append_lo (f : BitVec 16) : f.extractLsb' 8 8 ++ f.extractLsb' 0 8 = f := by
  rw [BitVec.extractLsb'_append_extractLsb'_eq_extractLsb' (by decide), BitVec.extractLsb'_eq_self]

/-- The pair's field is the field without its five flag bits. -/
theorem idField_idPairOf (f : BitVec 16) : idField (idPairOf f) = (f &&& 0xFFE0).setWidth 32 := by
  have hmask : f &&& 0xFFE0 = f.extractLsb' 8 8 ++ (f.extractLsb' 0 8 &&& 0xE0) :=
    calc f &&& 0xFFE0
      _ = (f.extractLsb' 8 8 ++ f.extractLsb' 0 8) &&& ((BitVec.allOnes 8) ++ (0xE0 : Byte)) := by
        rw [extract_hi_append_lo]; rfl
      _ = f.extractLsb' 8 8 ++ (f.extractLsb' 0 8 &&& 0xE0) := by rw [BitVec.and_append, BitVec.and_allOnes]
  rw [hmask, idField, idPairOf]

/-- The field's header has the pair's priority bits and address. -/
theorem unpackHeader_field (f : BitVec 16) :
    unpackHeader (f.toNat / 32)
      = ((idPairOf f).hi.toNat / 64, (idPairOf f).hi.toNat / 16 % 4, addrOf (idPairOf f)) := by
  have hf := f.isLt
  simp only [unpackHeader, addrOf, idPairOf_hi_toNat, idPairOf_lo_toNat, Prod.mk.injEq]
  omega

/-- A pair without flag bits is the pair of its field. -/
theorem idPairOf_idField {p : IdPair} (h : p.clean = true) : idPairOf ((idField p).setWidth 16) = p := by
  rw [IdPair.clean_iff] at h
  have hfield : (idField p).setWidth 16 = p.hi ++ p.lo := by
    rw [idField, BitVec.setWidth_setWidth_of_le _ (by decide), BitVec.setWidth_eq]
  rw [hfield, idPairOf, BitVec.extractLsb'_append_eq_left, BitVec.extractLsb'_append_eq_right, h]

/-! ### The pair of a bus address -/

theorem idOf_hi_toNat {a : Nat} (h : a < 128) : (idOf a).hi.toNat = a / 8 := by
  simp only [idOf, BitVec.toNat_ofNat]
  omega

theorem idOf_lo_toNat (a : Nat) : (idOf a).lo.toNat = a % 8 * 32 := by
  simp only [idOf, BitVec.toNat_ofNat]
  omega

theorem addrOf_idOf {a : Nat} (h : a < 128) : addrOf (idOf a) = a := by
  rw [addrOf, idOf_hi_toNat h, idOf_lo_toNat]
  omega

/-- Ascending addresses are ascending pairs: the high bytes ascend, or they agree and the low bytes ascend. -/
theorem idOf_lex {a b : Nat} (hab : a < b) (hb : b < 128) :
    (idOf a).hi.toNat < (idOf b).hi.toNat ∨ ((idOf a).hi = (idOf b).hi ∧ (idOf a).lo.toNat < (idOf b).lo.toNat) := by
  rw [← BitVec.toNat_inj, idOf_hi_toNat (by omega), idOf_hi_toNat hb, idOf_lo_toNat, idOf_lo_toNat]
  omega

/-- Settles O11: the field's pair, the converse on clean pairs, the pair of an address and its order, and the rule's six values. -/
theorem idPairsAndBusAddresses : Obligations.IdPairsAndBusAddresses := by
  refine ⟨fun f => ⟨idField_idPairOf f, idPairOf_clean f, unpackHeader_field f⟩, fun p => idPairOf_idField,
    fun a ha => ⟨addrOf_idOf ha, idOf_clean a, ?_⟩, fun a b => idOf_lex, by decide⟩
  rw [idOf_hi_toNat ha]
  omega

end Sys2Proof.Machine
end

section
/-! SUPPORT. The codec's two directions (40_codec R131, R138, R139): the header as a number, the decoded text of ENCODE, and the
strings that are their own re-encoding. -/

namespace Sys2Proof.Machine

/-! ### The header (R131) -/

/-- The three fields of a header do not overlap, so the disjunction is their sum. -/
theorem packHeader_eq (majpri : Nat) {minpri addr : Nat} (hm : minpri < 4) (ha : addr < 128) :
    packHeader majpri minpri addr = majpri * 512 + minpri * 128 + addr := by
  have hlow : minpri <<< 7 ||| addr = minpri * 128 + addr := by
    rw [← Nat.shiftLeft_add_eq_or_of_lt (by omega), Nat.shiftLeft_eq]
  rw [packHeader, Nat.or_assoc, hlow, ← Nat.shiftLeft_add_eq_or_of_lt (by omega), Nat.shiftLeft_eq]
  omega

theorem packHeader_lt {majpri minpri addr : Nat} (hM : majpri < 4) (hm : minpri < 4) (ha : addr < 128) :
    packHeader majpri minpri addr < 2048 := by
  rw [packHeader_eq majpri hm ha]
  omega

theorem unpackHeader_packHeader {majpri minpri addr : Nat} (hM : majpri < 4) (hm : minpri < 4) (ha : addr < 128) :
    unpackHeader (packHeader majpri minpri addr) = (majpri, minpri, addr) := by
  rw [packHeader_eq majpri hm ha]
  simp only [unpackHeader, Prod.mk.injEq]
  omega

theorem packHeader_unpackHeader {h : Nat} (hh : h < 2048) :
    packHeader (unpackHeader h).1 (unpackHeader h).2.1 (unpackHeader h).2.2 = h := by
  simp only [unpackHeader]
  rw [packHeader_eq _ (by omega) (by omega)]
  omega

/-- Settles O10: the header is the sum of its fields on their ranges, where packing and unpacking undo each other. -/
theorem headerPackingInverse : Obligations.HeaderPackingInverse :=
  ⟨fun majpri _ _ hM hm ha => ⟨packHeader_eq majpri hm ha, packHeader_lt hM hm ha, unpackHeader_packHeader hM hm ha⟩,
    fun _ => packHeader_unpackHeader, by decide, by decide⟩

/-! ### The reserved bits of a standard identifier field (30_encoding R98) -/

/-- The reserved bits are the field's remainder by 32. -/
theorem and_reservedBits_eq_zero_iff (x : BitVec 32) : x &&& 0x1F = 0 ↔ x.toNat % 32 = 0 := by
  rw [← BitVec.toNat_inj, BitVec.toNat_and]
  exact iff_of_eq (congrArg (· = 0) (Nat.and_two_pow_sub_one_eq_mod x.toNat 5))

/-- The standard field ENCODE writes for an identifier, as the shape check reads it. -/
def encodedField (id : BitVec 32) : BitVec 32 := ((id <<< Config.idShift).setWidth 16).setWidth 32

theorem encodedField_toNat (id : BitVec 32) : (encodedField id).toNat = id.toNat * 32 % 65536 := by
  simp only [encodedField, Config.idShift, BitVec.toNat_setWidth, BitVec.toNat_shiftLeft, Nat.shiftLeft_eq]
  omega

theorem encodedField_reservedBits (id : BitVec 32) : encodedField id &&& 0x1F = 0 := by
  rw [and_reservedBits_eq_zero_iff, encodedField_toNat]
  omega

/-- An 11-bit identifier survives the shift into the field and back. -/
theorem encodedField_ushiftRight {id : BitVec 32} (h : id.toNat ≤ 0x7FF) : encodedField id >>> Config.idShift = id := by
  apply BitVec.eq_of_toNat_eq
  rw [BitVec.toNat_ushiftRight, encodedField_toNat, Config.idShift, Nat.shiftRight_eq_div_pow]
  omega

/-- A field without reserved bits survives the shift out and back. -/
theorem shiftLeft_ushiftRight_of_reservedBits {f : BitVec 16} (h : f.setWidth 32 &&& (0x1F : BitVec 32) = 0) :
    ((f.setWidth 32 >>> Config.idShift) <<< Config.idShift).setWidth 16 = f := by
  have hf := f.isLt
  rw [and_reservedBits_eq_zero_iff, BitVec.toNat_setWidth] at h
  apply BitVec.eq_of_toNat_eq
  simp only [Config.idShift, BitVec.toNat_setWidth, BitVec.toNat_shiftLeft, BitVec.toNat_ushiftRight, Nat.shiftLeft_eq,
    Nat.shiftRight_eq_div_pow]
  omega

/-! ### Decoding what ENCODE writes (R138) -/

/-- The shape check accepts ENCODE's text and returns a normal frame with its field and data. -/
theorem checkShape_encodeText (ext : Bool) (id : BitVec 32) (opcode : Byte) {payload : List Byte} (h : payload.length ≤ 7) :
    checkShape (encodeText ext id opcode payload)
      = .ok ⟨ext, if ext then id else encodedField id, false, opcode :: payload⟩ := by
  have hdata : (opcode :: payload).length ≤ 8 := Nat.succ_le_succ h
  cases ext
  · exact checkShape_S _ false _ hdata
  · exact checkShape_X _ false _ hdata

theorem encodeArgsOk_iff {ext : Bool} {id : BitVec 32} {payload : List Byte} :
    encodeArgsOk ext id payload = true ↔ (ext = false → id.toNat ≤ 0x7FF) ∧ payload.length ≤ 7 := by
  cases ext <;> simp [encodeArgsOk, payloadOk]

/-- Settles O5: the shape check returns ENCODE's field, and an identifier in range survives the field. -/
theorem codecRoundTrip : Obligations.CodecRoundTrip := by
  intro ext id opcode payload hargs
  obtain ⟨hid, hpayload⟩ := encodeArgsOk_iff.mp hargs
  rw [decodeText, checkShape_encodeText ext id opcode hpayload]
  cases ext
  case false => simp [frameOf, encodedField_ushiftRight (hid rfl)]
  case true => simp [frameOf]

/-! ### Upper-case text -/

/-- The characters `a` to `f`, which ENCODE does not write (00_scope R8). -/
abbrev isLowerHex (x : Byte) : Prop := 0x61 ≤ x.toNat ∧ x.toNat ≤ 0x66

theorem not_isLowerHex_hexDigit {v : Nat} (h : v < 16) : ¬ isLowerHex (hexDigit v) := by
  interval_cases v <;> decide

theorem hexVal_lt_of_isHex : ∀ {x : Byte}, isHex x = true → hexVal x < 16 := by decide

/-- An upper-case digit is the digit written for its value. -/
theorem hexDigit_hexVal : ∀ {x : Byte}, isHex x = true → ¬ isLowerHex x → hexDigit (hexVal x) = x := by decide

theorem not_isLowerHex_of_mem_hexBytes {bs : List Byte} {x : Byte} (hx : x ∈ hexBytes bs) : ¬ isLowerHex x := by
  simp only [hexBytes, List.mem_flatMap, hex2, List.mem_cons, List.not_mem_nil, or_false] at hx
  obtain ⟨b, -, rfl | rfl⟩ := hx
  · exact not_isLowerHex_hexDigit (Nat.div_lt_of_lt_mul b.isLt)
  · exact not_isLowerHex_hexDigit (Nat.mod_lt _ (by decide))

/-- A frame's text has upper-case digits, and no marker or punctuation is one of `a` to `f`. -/
theorem not_isLowerHex_of_mem_frameText {ext rtr : Bool} {idBytes data : List Byte} {x : Byte}
    (hx : x ∈ frameText ext idBytes rtr data) : ¬ isLowerHex x := by
  simp only [frameText, List.mem_cons, List.mem_append, List.not_mem_nil, or_false] at hx
  rcases hx with rfl | rfl | hx | rfl | hx | rfl
  · decide
  · cases ext <;> decide
  · exact not_isLowerHex_of_mem_hexBytes hx
  · cases rtr <;> decide
  · exact not_isLowerHex_of_mem_hexBytes hx
  · decide

/-- The byte two digits write is written with the same two digits, if they are upper-case. -/
theorem hex2_ofNat_hexVal {x y : Byte} (hx : isHex x = true) (hy : isHex y = true) (hxu : ¬ isLowerHex x)
    (hyu : ¬ isLowerHex y) : hex2 (BitVec.ofNat 8 (hexVal x * 16 + hexVal y)) = [x, y] := by
  have hx16 := hexVal_lt_of_isHex hx
  have hy16 := hexVal_lt_of_isHex hy
  have hbyte : (BitVec.ofNat 8 (hexVal x * 16 + hexVal y)).toNat = hexVal x * 16 + hexVal y :=
    Nat.mod_eq_of_lt (by omega)
  have hhi : (hexVal x * 16 + hexVal y) / 16 = hexVal x := by omega
  have hlo : (hexVal x * 16 + hexVal y) % 16 = hexVal y := by omega
  rw [hex2, hbyte, hhi, hlo, hexDigit_hexVal hx hxu, hexDigit_hexVal hy hyu]

/-- `hexBytes` undoes `unhex` on upper-case digits, two a byte. -/
theorem hexBytes_unhex (ds : WireString) (heven : ds.length % 2 = 0) (hhex : ∀ x ∈ ds, isHex x = true)
    (hupper : ∀ x ∈ ds, ¬ isLowerHex x) : hexBytes (unhex ds) = ds := by
  induction ds using unhex.induct with
  | case1 x y rest ih =>
    simp only [List.length_cons, List.forall_mem_cons] at heven hhex hupper
    obtain ⟨hx, hy, hrest⟩ := hhex
    obtain ⟨hxu, hyu, hrestu⟩ := hupper
    have htail : hexBytes (unhex rest) = rest := ih (by omega) hrest hrestu
    calc hexBytes (unhex (x :: y :: rest))
      _ = hex2 (BitVec.ofNat 8 (hexVal x * 16 + hexVal y)) ++ hexBytes (unhex rest) := rfl
      _ = x :: y :: rest := by rw [hex2_ofNat_hexVal hx hy hxu hyu, htail]; rfl
  | case2 ds hshort =>
    match ds with
    | [] => rfl
    | [_] => simp at heven
    | x :: y :: rest => exact absurd rfl (hshort x y rest)

theorem unhex_length (ds : WireString) : (unhex ds).length = ds.length / 2 := by
  induction ds using unhex.induct with
  | case1 x y rest ih => simp only [unhex, List.length_cons, ih]; omega
  | case2 ds hshort =>
    match ds with
    | [] => rfl
    | [_] => simp [unhex]
    | x :: y :: rest => exact absurd rfl (hshort x y rest)

/-! ### Bytes and fields -/

theorem exists_bytes2_eq {bs : List Byte} (h : bs.length = 2) : ∃ f, bytes2 f = bs := by
  obtain ⟨x, y, rfl⟩ := List.length_eq_two.mp h
  exact ⟨x ++ y, bytes2_append x y⟩

/-- The bytes of a 32-bit field are those of its two halves. -/
theorem bytes4_append (f g : BitVec 16) : bytes4 (f ++ g) = bytes2 f ++ bytes2 g := by
  simp only [bytes4, bytes2, List.cons_append, List.nil_append, List.cons.injEq, and_true]
  exact ⟨BitVec.extractLsb'_append_eq_of_le (by decide), BitVec.extractLsb'_append_eq_of_le (by decide),
    BitVec.extractLsb'_append_eq_of_add_le (by decide), BitVec.extractLsb'_append_eq_of_add_le (by decide)⟩

theorem exists_bytes4_eq {bs : List Byte} (h : bs.length = 4) : ∃ x, bytes4 x = bs := by
  obtain ⟨f, hf⟩ := exists_bytes2_eq (bs := bs.take 2) (by simp [h])
  obtain ⟨g, hg⟩ := exists_bytes2_eq (bs := bs.drop 2) (by simp [h])
  exact ⟨f ++ g, by rw [bytes4_append, hf, hg, List.take_append_drop]⟩

/-! ### Re-encoding a decoded string (R139) -/

/-- An accepted string has at most 8 data bytes. -/
theorem checkShape_data_length {w : WireString} {c : Parsed} (h : checkShape w = .ok c) : c.data.length ≤ 8 := by
  obtain ⟨m, k, ids, data, n, rfl, hm, hn, hk, hids, hdata, hle, heven⟩ := checkShape_ok_form w c h
  have h4 : 4 ≤ n := by rcases idWidth_eq_some_iff.mp hm with ⟨-, rfl⟩ | ⟨-, rfl⟩ <;> decide
  rw [checkShape_form m k ids data n hm hn hk h4 hids hdata hle heven] at h
  cases h
  rw [unhex_length]
  omega

/-- An accepted string without a lower-case digit is the frame text of some identifier and data bytes. -/
theorem exists_frameText_of_upperCase {w : WireString} {c : Parsed} (h : checkShape w = .ok c)
    (hupper : ∀ x ∈ w, ¬ isLowerHex x) :
    ∃ ext idBytes rtr data, idBytes.length = (if ext then 4 else 2) ∧ data.length ≤ 8 ∧ w = frameText ext idBytes rtr data := by
  obtain ⟨m, k, ids, data, n, hw, hm, rfl, hk, hids, hdata, hle, heven⟩ := checkShape_ok_form w c h
  have hext : ∃ ext : Bool, (if ext then chX else chS) = m ∧ ids.length = 2 * (if ext then 4 else 2) := by
    rcases idWidth_eq_some_iff.mp hm with ⟨rfl, hn⟩ | ⟨rfl, hn⟩
    · exact ⟨false, rfl, hn⟩
    · exact ⟨true, rfl, hn⟩
  have hrtr : ∃ rtr : Bool, (if rtr then chR else chN) = k := by
    rcases hk with rfl | rfl
    · exact ⟨false, rfl⟩
    · exact ⟨true, rfl⟩
  obtain ⟨ext, rfl, hlen⟩ := hext
  obtain ⟨rtr, rfl⟩ := hrtr
  have hidsText : hexBytes (unhex ids) = ids :=
    hexBytes_unhex ids (by omega) hids fun x hx => hupper x (by simp [hw, hx])
  have hdataText : hexBytes (unhex data) = data :=
    hexBytes_unhex data heven hdata fun x hx => hupper x (by simp [hw, hx])
  refine ⟨ext, unhex ids, rtr, unhex data, ?_, ?_, ?_⟩
  · rw [unhex_length]; omega
  · rw [unhex_length]; omega
  · rw [hw, frameText, hidsText, hdataText]

/-- An accepted string without a lower-case digit is the frame text of the fields the shape check returns. -/
theorem eq_frameText_of_upperCase {w : WireString} {c : Parsed} (h : checkShape w = .ok c)
    (hupper : ∀ x ∈ w, ¬ isLowerHex x) :
    (∃ f rtr data, c = ⟨false, f.setWidth 32, rtr, data⟩ ∧ w = frameText false (bytes2 f) rtr data)
      ∨ ∃ x rtr data, c = ⟨true, x, rtr, data⟩ ∧ w = frameText true (bytes4 x) rtr data := by
  obtain ⟨ext, idBytes, rtr, data, hid, hdata, rfl⟩ := exists_frameText_of_upperCase h hupper
  cases ext
  case false =>
    obtain ⟨f, rfl⟩ := exists_bytes2_eq hid
    rw [checkShape_S f rtr data hdata] at h
    exact .inl ⟨f, rtr, data, (Except.ok.inj h).symm, rfl⟩
  case true =>
    obtain ⟨x, rfl⟩ := exists_bytes4_eq hid
    rw [checkShape_X x rtr data hdata] at h
    exact .inr ⟨x, rtr, data, (Except.ok.inj h).symm, rfl⟩

/-- What ENCODE writes is a normal frame with a data byte and, if standard, with zero reserved bits. -/
theorem fields_of_encodeText {ext : Bool} {id : BitVec 32} {opcode : Byte} {payload : List Byte} {c : Parsed}
    (hpayload : payload.length ≤ 7) (h : checkShape (encodeText ext id opcode payload) = .ok c) :
    c.rtr = false ∧ c.data ≠ [] ∧ (c.ext = false → c.idfield &&& 0x1F = 0) := by
  rw [checkShape_encodeText ext id opcode hpayload] at h
  cases h
  refine ⟨rfl, List.cons_ne_nil _ _, ?_⟩
  rintro rfl
  exact encodedField_reservedBits id

/-- ENCODE of a standard frame's decoded identifier writes the frame's text again if its field has zero reserved bits. -/
theorem encodeText_standardField {f : BitVec 16} (h : f.setWidth 32 &&& (0x1F : BitVec 32) = 0) (opcode : Byte)
    (payload : List Byte) :
    encodeText false (f.setWidth 32 >>> Config.idShift) opcode payload = frameText false (bytes2 f) false (opcode :: payload) := by
  simp only [encodeText, Bool.false_eq_true, if_false, shiftLeft_ushiftRight_of_reservedBits h]

/-- Settles O6: `fields_of_encodeText` gives the conditions, and an accepted string that meets them is the frame text of its own
fields (`eq_frameText_of_upperCase`), which ENCODE writes. -/
theorem reencodingReproducesExactly : Obligations.ReencodingReproducesExactly := by
  intro w c hc
  constructor
  · rintro ⟨opcode, -, rfl⟩
    have hpayload : (frameOf c).payload.length ≤ 7 :=
      List.length_tail.trans_le (Nat.sub_le_of_le_add (checkShape_data_length hc))
    obtain ⟨hrtr, hdata, hreserved⟩ := fields_of_encodeText hpayload hc
    exact ⟨hrtr, hdata, fun _ hx => not_isLowerHex_of_mem_frameText hx, hreserved⟩
  · rintro ⟨hrtr, hdata, hupper, hreserved⟩
    obtain ⟨opcode, payload, hcons⟩ := List.exists_cons_of_ne_nil hdata
    refine ⟨opcode, by simp [frameOf, hcons], ?_⟩
    rcases eq_frameText_of_upperCase hc hupper with ⟨f, rtr, data, rfl, rfl⟩ | ⟨x, rtr, data, rfl, rfl⟩
    · subst hrtr hcons
      exact encodeText_standardField (hreserved rfl) opcode payload
    · subst hrtr hcons
      rfl

end Sys2Proof.Machine
end

section
/-! SUPPORT. INITIALIZE's two refusals (42_initialize R172): the guard on POLL's position met, what INITIALIZE answers on a live
driver and for an oscillator outside the table. -/

namespace Sys2Proof.Machine

theorem State.whenIdle_idle {s : State} (hc : s.ctx = .poll) (hp : s.poll = .idle) (k : Out) : s.whenIdle k = k :=
  (if_pos hc).trans (if_pos hp)

theorem execInit_alreadyInitialized {s : State} (hc : s.ctx = .poll) (hp : s.poll = .idle) (hm : s.drv.mode = .ready)
    (b c l : BitVec 32) (hz : Nat) : execInit b c l hz s = .refused .alreadyInitialized :=
  (State.whenIdle_idle hc hp _).trans (if_pos hm)

theorem execInit_unknownOscillator {s : State} {hz : Nat} (hc : s.ctx = .poll) (hp : s.poll = .idle)
    (hm : s.drv.mode ≠ .ready) (ho : s.params.oscTable.lookup hz = none) (b c l : BitVec 32) :
    execInit b c l hz s = .refused .unknownOscillator :=
  (State.whenIdle_idle hc hp _).trans ((if_neg hm).trans (if_pos (Option.isNone_iff_eq_none.2 ho)))

/-- A frequency that is the key of no entry of `OSC_TABLE` is not found there. -/
theorem oscTable_lookup_eq_none {p : Params} {hz : Nat} (h : ∀ ws, (hz, ws) ∉ p.oscTable) : p.oscTable.lookup hz = none := by
  rw [List.lookup_eq_none_iff]
  rintro ⟨key, ws⟩ hmem
  have hne : hz ≠ key := by
    rintro rfl
    exact h ws hmem
  exact bne_iff_ne.2 hne

/-- Settles O25: the first `require` line fails on a live driver; on an uninitialised one it passes, and the second fails as the
lookup finds nothing (`oscTable_lookup_eq_none`). -/
theorem initializeRefusals : Obligations.InitializeRefusals := by
  intro b c l hz s hc hp
  constructor
  · intro hready
    exact execInit_alreadyInitialized hc hp hready b c l hz
  · intro huninit hkey
    have hnotReady : s.drv.mode ≠ .ready := by simp [huninit]
    exact execInit_unknownOscillator hc hp hnotReady (oscTable_lookup_eq_none hkey) b c l

end Sys2Proof.Machine
end

section
/-! SUPPORT. SEND run by POLL alone (43_send R181 to R190): one rule for each operation SEND is made of, where POLL can stand inside
SEND and what has happened by then, and the rows of R190 that this leaves at the return. -/

namespace Sys2Proof.Machine

/-! ### POLL alone -/

theorem pollRun_idle {u : State} (hp : u.poll = .idle) (k : Nat) : pollRun k u = .next u := by
  cases k with
  | zero => rfl
  | succ k => exact if_pos hp

theorem pollRun_succ {u v : State} (hp : u.poll ≠ .idle) (hv : pollContinue u = .next v) (k : Nat) :
    pollRun (k + 1) u = pollRun k v := by
  rw [pollRun, if_neg hp, hv]

/-- A property under which POLL goes on, and which its micro-step then keeps, holds wherever POLL's run ends. -/
theorem pollRun_preserves {P : State → Prop}
    (hstep : ∀ u, P u → u.poll ≠ .idle → ∃ v, pollContinue u = .next v ∧ P v) {k : Nat} {u t : State} (hu : P u)
    (ht : pollRun k u = .next t) : P t := by
  induction k generalizing u with
  | zero =>
    cases ht
    exact hu
  | succ k ih =>
    by_cases hp : u.poll = .idle
    · rw [pollRun_idle hp] at ht
      cases ht
      exact hu
    · obtain ⟨v, hv, hPv⟩ := hstep u hu hp
      rw [pollRun_succ hp hv] at ht
      exact ih hPv ht

theorem callRun_of_exec {i : Instr} {s u : State} (h : exec i s = .next u) (k : Nat) : callRun i k s = pollRun k u := by
  rw [callRun, h]

theorem callRun_next {i : Instr} {k : Nat} {s t : State} (h : callRun i k s = .next t) :
    ∃ u, exec i s = .next u ∧ pollRun k u = .next t := by
  unfold callRun at h
  split at h
  · exact ⟨_, ‹_›, h⟩
  · cases h
  · cases h

/-! ### S1 and S2 -/

theorem execSend_error {w : WireString} {e : CtbError} {s : State} (hc : s.ctx = .poll) (hp : s.poll = .idle)
    (hm : s.drv.mode = .ready) (he : checkShape w = .error e) : exec (.send w) s = .next (s.raiseSend e) := by
  refine (State.whenIdle_idle hc hp _).trans ((if_pos hm).trans ?_)
  rw [he]

theorem execSend_ok {w : WireString} {c : Parsed} {s : State} (hc : s.ctx = .poll) (hp : s.poll = .idle)
    (hm : s.drv.mode = .ready) (hw : checkShape w = .ok c) : exec (.send w) s = .next (s.start (.sendAbsent c)) := by
  refine (State.whenIdle_idle hc hp _).trans ((if_pos hm).trans ?_)
  rw [hw]

/-- SEND of a malformed string is over when it is called. -/
theorem callRun_send_error {w : WireString} {e : CtbError} {s : State} (hc : s.ctx = .poll) (hp : s.poll = .idle)
    (hm : s.drv.mode = .ready) (he : checkShape w = .error e) (k : Nat) :
    callRun (.send w) k s = .next (s.raiseSend e) := by
  rw [callRun_of_exec (execSend_error hc hp hm he), pollRun_idle rfl]

/-- SEND of an accepted string, while the controller is absent, is over after S2. -/
theorem callRun_send_absent {w : WireString} {c : Parsed} {s : State} (hc : s.ctx = .poll) (hp : s.poll = .idle)
    (hm : s.drv.mode = .ready) (hw : checkShape w = .ok c) (ha : s.drv.absent = true) (k : Nat) :
    callRun (.send w) (k + 1) s = .next (s.raiseSend .controllerNotPresent) := by
  have hS2 : pollContinue (s.start (.sendAbsent c)) = .next (s.raiseSend .controllerNotPresent) :=
    congrArg Host.Outcome.next (if_pos ha)
  rw [callRun_of_exec (execSend_ok hc hp hm hw), pollRun_succ (by simp) hS2, pollRun_idle rfl]

/-- Settles O30: the shape check comes first, and S2 is the only micro-step after it. -/
theorem sendWhileAbsent : Obligations.SendWhileAbsent := by
  intro w s hc hp hm ha
  constructor
  · intro e he
    exact callRun_send_error hc hp hm he 5
  · intro c hw
    exact callRun_send_absent hc hp hm hw ha 4

/-! ### What has happened since SEND was called -/

/-- In `u`, compared with the state `s` of the call: the mask is `masked` and the rest of the block's state is as it was, the events
`evs` have been added, and at least `ms` milliseconds have passed. -/
structure SendSince (s : State) (masked : Bool) (ms : Nat) (evs : List Event) (u : State) : Prop where
  params : u.params = s.params
  drv : u.drv = { s.drv with irqMask := masked }
  hist : u.hist = s.hist ++ evs
  clock : s.env.clock + ms ≤ u.env.clock

namespace SendSince

variable {s u : State} {masked : Bool} {ms : Nat} {evs : List Event}

theorem goto (h : SendSince s masked ms evs u) (p : PollPos) : SendSince s masked ms evs (u.goto p) :=
  ⟨h.params, h.drv, h.hist, h.clock⟩

theorem ret (h : SendSince s masked ms evs u) (v : Ret) : SendSince s masked ms evs (u.ret v) :=
  ⟨h.params, h.drv, h.hist, h.clock⟩

theorem setMask (h : SendSince s masked ms evs u) (b : Bool) : SendSince s b ms evs (u.setMask b) :=
  ⟨h.params, by simp [h.drv], h.hist, h.clock⟩

theorem txLoad (h : SendSince s masked ms evs u) (r : List Byte) :
    SendSince s masked ms (evs ++ [loadEvent s.params.chip r]) (u.txLoad r) :=
  ⟨h.params, h.drv, by simp [h.hist, h.params], h.clock⟩

theorem txRequest (h : SendSince s masked ms evs u) (p : Prio) :
    SendSince s masked ms (evs ++ [requestEvent s.params.chip p]) (u.txRequest p) :=
  ⟨h.params, h.drv, by simp [h.hist, h.params], h.clock⟩

theorem txAbort (h : SendSince s masked ms evs u) :
    SendSince s masked ms (evs ++ [abortEvent s.params.chip]) u.txAbort :=
  ⟨h.params, h.drv, by simp [h.hist, h.params], h.clock⟩

theorem regRead (h : SendSince s masked ms evs u) (a : Byte) :
    SendSince s masked ms (evs ++ [readEvent s.params.chip a u.env.takeByte.1]) (u.regRead a).2 :=
  ⟨h.params, h.drv, by simp [h.hist, h.params], by simpa using h.clock⟩

theorem now (h : SendSince s masked ms evs u) : SendSince s masked ms evs u.now.2 :=
  ⟨h.params, h.drv, h.hist, by simpa using h.clock.trans u.env.clock_le_takeTick⟩

/-- A later reading of the clock shows that more time has passed. -/
theorem later {ms' : Nat} (h : SendSince s masked ms evs u) (hms : s.env.clock + ms' ≤ u.env.clock) :
    SendSince s masked ms' evs u := ⟨h.params, h.drv, h.hist, hms⟩

theorem drv_unmasked (h : SendSince s false ms evs u) (hm : s.drv.irqMask = false) : u.drv = s.drv := by
  rw [h.drv, ← hm]

end SendSince

/-! ### Where POLL can stand inside SEND -/

/-- What the attempts before this one have waited, at least (R187). -/
def Attempt.waited : Attempt → Nat
  | .first => 0
  | .second => Config.tTxMs

/-- S5 and the first S6a. -/
def sendOpening (p : Chip) (c : Parsed) : List Event :=
  [loadEvent p (mkTxRec p c.ext c.idfield c.rtr c.data), requestEvent p .high]

/-- The events of SEND before an attempt's wait: the opening and a matching readback; for the second attempt also the whole of the
first one's wait, its abort, and the second request (R185, R187). -/
inductive BeforeWait (p : Chip) (c : Parsed) : Attempt → List Event → Prop
  | first (v : Byte) (hv : v &&& p.txctrlReadyMask = p.txctrlReadyHigh) :
    BeforeWait p c .first (sendOpening p c ++ [readEvent p p.regTxctrl v])
  | second (before polls : List Event) (hb : BeforeWait p c .first before) (hpolls : PendingPolls p polls)
      (hne : polls ≠ []) :
    BeforeWait p c .second (before ++ polls ++ [abortEvent p] ++ [requestEvent p .retry])

theorem PendingPolls.concat {p : Chip} {polls : List Event} {v : Byte} (h : PendingPolls p polls)
    (hv : v &&& p.txctrlPending ≠ 0) : PendingPolls p (polls ++ [readEvent p p.regTxctrl v]) := by
  intro e he
  rcases List.mem_append.1 he with he | he
  · exact h e he
  · exact ⟨v, List.mem_singleton.1 he, hv⟩

/-- The rows of R190 for a controller not known to be absent, as what holds when SEND returns. -/
inductive SendReturned (s : State) (c : Parsed) (t : State) : Prop
  | notPresent (v : Byte) (hv : v &&& s.params.chip.txctrlReadyMask ≠ s.params.chip.txctrlReadyHigh)
      (hres : t.result = some (.sent (.error .controllerNotPresent)))
      (hhist : t.hist = s.hist ++ (sendOpening s.params.chip c
        ++ [readEvent s.params.chip s.params.chip.regTxctrl v, .log .controllerNotPresent]))
      (hdrv : t.drv = { s.drv with irqMask := false, absent := true })
  | ok {a : Attempt} {before : List Event} (polls : List Event) (e : Event) (hb : BeforeWait s.params.chip c a before)
      (hpolls : PendingPolls s.params.chip polls) (he : ClearPoll s.params.chip e)
      (hres : t.result = some (.sent (.ok ()))) (h : SendSince s false a.waited (before ++ polls ++ [e]) t)
  | timeout {before : List Event} (polls : List Event) (hb : BeforeWait s.params.chip c .second before)
      (hpolls : PendingPolls s.params.chip polls) (hne : polls ≠ [])
      (hres : t.result = some (.sent (.error .transmitTimeout)))
      (h : SendSince s false (2 * Config.tTxMs) (before ++ polls ++ [abortEvent s.params.chip]) t)

/-- SEND of the fields `c`, called in `s`: POLL's positions in it, each with what has happened since the call. -/
inductive SendAt (s : State) (c : Parsed) (u : State) : Prop
  | absentTest (hp : u.poll = .sendAbsent c) (h : SendSince s false 0 [] u)
  | record (hp : u.poll = .sendRecord c) (h : SendSince s false 0 [] u)
  | mask (hp : u.poll = .sendMask (mkTxRec s.params.chip c.ext c.idfield c.rtr c.data)) (h : SendSince s false 0 [] u)
  | load (hp : u.poll = .sendLoad (mkTxRec s.params.chip c.ext c.idfield c.rtr c.data)) (h : SendSince s true 0 [] u)
  | request (hp : u.poll = .sendRequest .first)
      (h : SendSince s true 0 [loadEvent s.params.chip (mkTxRec s.params.chip c.ext c.idfield c.rtr c.data)] u)
  | readback (hp : u.poll = .sendReadback) (h : SendSince s true 0 (sendOpening s.params.chip c) u)
  | clock {a : Attempt} {before : List Event} (hp : u.poll = .sendClock a) (hb : BeforeWait s.params.chip c a before)
      (h : SendSince s true a.waited before u)
  | poll {a : Attempt} {t0 : Nat} {before polls : List Event} (hp : u.poll = .sendPoll a t0)
      (hb : BeforeWait s.params.chip c a before) (hpolls : PendingPolls s.params.chip polls)
      (ht0 : s.env.clock + a.waited ≤ t0) (h : SendSince s true a.waited (before ++ polls) u)
  | time {a : Attempt} {t0 : Nat} {before polls : List Event} (hp : u.poll = .sendTime a t0)
      (hb : BeforeWait s.params.chip c a before) (hpolls : PendingPolls s.params.chip polls) (hne : polls ≠ [])
      (ht0 : s.env.clock + a.waited ≤ t0) (h : SendSince s true a.waited (before ++ polls) u)
  | abort {a : Attempt} {before polls : List Event} (hp : u.poll = .sendAbort a)
      (hb : BeforeWait s.params.chip c a before) (hpolls : PendingPolls s.params.chip polls) (hne : polls ≠ [])
      (h : SendSince s true (a.waited + Config.tTxMs) (before ++ polls) u)
  | retry {before polls : List Event} (hp : u.poll = .sendRequest .second)
      (hb : BeforeWait s.params.chip c .first before) (hpolls : PendingPolls s.params.chip polls) (hne : polls ≠ [])
      (h : SendSince s true Config.tTxMs (before ++ polls ++ [abortEvent s.params.chip]) u)
  | giveUp {before polls : List Event} (hp : u.poll = .sendGiveUp)
      (hb : BeforeWait s.params.chip c .second before) (hpolls : PendingPolls s.params.chip polls) (hne : polls ≠ [])
      (h : SendSince s true (2 * Config.tTxMs) (before ++ polls ++ [abortEvent s.params.chip]) u)
  | returned (hp : u.poll = .idle) (h : SendReturned s c u)

section Steps

variable {s u : State} {c : Parsed}

/-- S6b, where the absence is found and logged. -/
theorem sendReadbackStep_sendAt (ha : s.drv.absent = false) (h : SendSince s true 0 (sendOpening s.params.chip c) u) :
    SendAt s c (sendReadbackStep u) := by
  have hread := h.regRead u.params.chip.regTxctrl
  unfold sendReadbackStep
  dsimp only
  rw [h.params] at hread ⊢
  split
  case isTrue hv =>
    refine .returned rfl (.notPresent _ hv rfl ?_ ?_)
    · simp [State.raiseSend, State.latchAbsent_hist, h.drv, h.hist, h.params, ha]
    · simp [State.raiseSend, h.drv]
  case isFalse hv => exact .clock rfl (.first _ (not_not.1 hv)) (hread.goto _)

/-- S6d's read: a clear flag returns `Ok`, a pending one is one poll more. -/
theorem sendPollStep_sendAt {a : Attempt} {t0 : Nat} {before polls : List Event}
    (hb : BeforeWait s.params.chip c a before) (hpolls : PendingPolls s.params.chip polls)
    (ht0 : s.env.clock + a.waited ≤ t0) (h : SendSince s true a.waited (before ++ polls) u) :
    SendAt s c (sendPollStep a t0 u) := by
  have hread := h.regRead u.params.chip.regTxctrl
  unfold sendPollStep
  dsimp only
  rw [h.params] at hread ⊢
  split
  case isTrue hclear => exact .returned rfl (.ok _ _ hb hpolls ⟨_, rfl, hclear⟩ rfl ((hread.setMask false).ret _))
  case isFalse hpending =>
    rw [List.append_assoc] at hread
    exact .time rfl hb (hpolls.concat hpending) (by simp) ht0 (hread.goto _)

/-- S6d's time test: a wait that ends has taken `T_TX_MS` on top of what was waited before. -/
theorem sendTimeStep_sendAt {a : Attempt} {t0 : Nat} {before polls : List Event}
    (hb : BeforeWait s.params.chip c a before) (hpolls : PendingPolls s.params.chip polls) (hne : polls ≠ [])
    (ht0 : s.env.clock + a.waited ≤ t0) (h : SendSince s true a.waited (before ++ polls) u) :
    SendAt s c (sendTimeStep a t0 u) := by
  unfold sendTimeStep
  split
  case isTrue hlate =>
    have hwaited : s.env.clock + (a.waited + Config.tTxMs) ≤ u.now.2.env.clock := by
      simp only [State.now_env, Env.takeTick_clock, State.now_value, Config.tTxMs] at hlate ⊢
      omega
    exact .abort rfl hb hpolls hne ((h.now.later hwaited).goto _)
  case isFalse => exact .poll rfl hb hpolls ht0 (h.now.goto _)

/-- S6e, after each attempt. -/
theorem sendAbortStep_sendAt {a : Attempt} {before polls : List Event}
    (hb : BeforeWait s.params.chip c a before) (hpolls : PendingPolls s.params.chip polls) (hne : polls ≠ [])
    (h : SendSince s true (a.waited + Config.tTxMs) (before ++ polls) u) : SendAt s c (sendAbortStep a u) := by
  cases a with
  | first => exact .retry rfl hb hpolls hne (h.txAbort.goto _)
  | second => exact .giveUp rfl hb hpolls hne (h.txAbort.goto _)

/-- POLL's micro-step leads from each of SEND's positions to the next one. -/
theorem sendAt_pollContinue (ha : s.drv.absent = false) (hu : SendAt s c u) (hidle : u.poll ≠ .idle) :
    ∃ v, pollContinue u = .next v ∧ SendAt s c v := by
  unfold pollContinue
  cases hu with
  | absentTest hp h =>
    rw [hp]
    have hS2 : sendAbsentStep c u = u.goto (.sendRecord c) := if_neg (by simp [h.drv, ha])
    exact ⟨_, rfl, hS2 ▸ .record rfl (h.goto _)⟩
  | record hp h =>
    rw [hp]
    exact ⟨_, rfl, .mask (by simp [sendRecordStep, h.params]) (h.goto _)⟩
  | mask hp h =>
    rw [hp]
    exact ⟨_, rfl, .load rfl ((h.setMask true).goto _)⟩
  | load hp h =>
    rw [hp]
    exact ⟨_, rfl, .request rfl ((h.txLoad _).goto _)⟩
  | request hp h =>
    rw [hp]
    exact ⟨_, rfl, .readback rfl ((h.txRequest .high).goto _)⟩
  | readback hp h =>
    rw [hp]
    exact ⟨_, rfl, sendReadbackStep_sendAt ha h⟩
  | clock hp hb h =>
    rw [hp]
    have ht0 := h.now.clock
    rw [State.now_env, Env.takeTick_clock] at ht0
    exact ⟨_, rfl, .poll rfl hb (List.forall_mem_nil _) ht0 (by rw [List.append_nil]; exact h.now.goto _)⟩
  | poll hp hb hpolls ht0 h =>
    rw [hp]
    exact ⟨_, rfl, sendPollStep_sendAt hb hpolls ht0 h⟩
  | time hp hb hpolls hne ht0 h =>
    rw [hp]
    exact ⟨_, rfl, sendTimeStep_sendAt hb hpolls hne ht0 h⟩
  | abort hp hb hpolls hne h =>
    rw [hp]
    exact ⟨_, rfl, sendAbortStep_sendAt hb hpolls hne h⟩
  | retry hp hb hpolls hne h =>
    rw [hp]
    exact ⟨_, rfl, .clock rfl (.second _ _ hb hpolls hne) ((h.txRequest .retry).goto _)⟩
  | giveUp hp hb hpolls hne h =>
    rw [hp]
    exact ⟨_, rfl, .returned rfl (.timeout _ hb hpolls hne rfl ((h.setMask false).ret _))⟩
  | returned hp h => exact absurd hp hidle

theorem SendAt.sendReturned (hu : SendAt s c u) (hp : u.poll = .idle) : SendReturned s c u := by
  cases hu with
  | returned _ h => exact h
  | _ hq => simp [hq] at hp

end Steps

/-- POLL alone, from S2 to the return with the controller not known to be absent. -/
theorem sendReturned_of_pollRun {s t : State} {c : Parsed} {k : Nat} (hm : s.drv.irqMask = false)
    (ha : s.drv.absent = false) (hrun : pollRun k (s.start (.sendAbsent c)) = .next t) (ht : t.poll = .idle) :
    SendReturned s c t := by
  have hstart : SendAt s c (s.start (.sendAbsent c)) := .absentTest rfl ⟨rfl, by simp [← hm], by simp, le_rfl⟩
  exact (pollRun_preserves (fun _ => sendAt_pollContinue ha) hstart hrun).sendReturned ht

/-- Settles O31: S1 and S2 return at once where they can, and else POLL's positions (`sendAt_pollContinue`) lead to one of the rows
of `SendReturned`. -/
theorem sendOutcomes : Obligations.SendOutcomes := by
  intro w s t k hp hready hmask hcall hidle
  obtain ⟨u, hexec, hrun⟩ := callRun_next hcall
  have hctx : s.ctx = .poll := (s.whenIdle_next hexec).1
  cases hw : checkShape w with
  | error e =>
    rw [callRun_send_error hctx hp hready hw] at hcall
    cases hcall
    exact .inl ⟨e, rfl, rfl, rfl, rfl⟩
  | ok c =>
    refine .inr ⟨c, rfl, ?_⟩
    rw [execSend_ok hctx hp hready hw] at hexec
    cases hexec
    cases ha : s.drv.absent with
    | true =>
      cases k with
      | zero =>
        cases hrun
        cases hidle
      | succ k =>
        rw [callRun_send_absent hctx hp hready hw ha] at hcall
        cases hcall
        exact .inl ⟨rfl, rfl, rfl, rfl⟩
    | false =>
      cases sendReturned_of_pollRun hmask ha hrun hidle with
      | notPresent v hv hres hhist hdrv =>
        refine .inr (.inl ⟨rfl, v, hv, hres, ?_, ?_⟩)
        · simp [hhist, sendOpening]
        · rw [hdrv, ← hmask]
      | ok polls e hb hpolls he hres h =>
        refine .inr (.inr ⟨rfl, h.drv_unmasked hmask, ?_⟩)
        cases hb with
        | first v hv => exact ⟨v, polls, hv, hpolls, .inl ⟨e, he, hres, by simp [h.hist, sendOpening]⟩⟩
        | second _ polls₁ hb₁ hpolls₁ hne₁ =>
          obtain ⟨v, hv⟩ := hb₁
          exact ⟨v, polls₁, hv, hpolls₁, .inr ⟨hne₁, polls, hpolls, .inl ⟨e, he, hres, by simp [h.hist, sendOpening]⟩⟩⟩
      | timeout polls hb hpolls hne hres h =>
        refine .inr (.inr ⟨rfl, h.drv_unmasked hmask, ?_⟩)
        obtain _ | ⟨_, polls₁, hb₁, hpolls₁, hne₁⟩ := hb
        obtain ⟨v, hv⟩ := hb₁
        exact ⟨v, polls₁, hv, hpolls₁, .inr ⟨hne₁, polls, hpolls, .inr ⟨hne, hres, by simp [h.hist, sendOpening], h.clock⟩⟩⟩

end Sys2Proof.Machine
end

section
/-! SUPPORT. IRQ_HANDLER's decision table (44_receive_path R200 to R209): the rule's two predicates, what each case of the
handler's body leaves, and which case a record takes. -/

namespace Sys2Proof.Machine

/-! ### The two predicates (R207) and the conditions of cases A and B -/

theorem idMatch_iff (c : Chip) (own : IdPair) (r : List Byte) :
    idMatch c own r = true ↔ recExt c r = false ∧ recId c r = own := by
  simp [idMatch]

theorem payloadLen_remote {c : Chip} {r : List Byte} (h : recRtr c r = true) : payloadLen c r = 0 := if_pos h

theorem payloadLen_normal {c : Chip} {r : List Byte} (h : recRtr c r = false) : payloadLen c r = recLen c r :=
  if_neg (Bool.eq_false_iff.1 h)

theorem payloadLen_eq_zero_iff (c : Chip) (r : List Byte) : payloadLen c r = 0 ↔ recRtr c r = true ∨ recLen c r = 0 := by
  cases h : recRtr c r with
  | false => simp [payloadLen_normal h]
  | true => simp [payloadLen_remote h]

theorem caseA_iff (s : State) (r : List Byte) :
    caseA s r = true ↔ recRtr s.params.chip r = true ∧ idMatch s.params.chip s.drv.selfId r = true := Bool.and_eq_true_iff

theorem caseB_iff (s : State) (r : List Byte) :
    caseB s r = true ↔ s.drv.enum = true ∧ payloadLen s.params.chip r = 0 := by
  simp [caseB]

/-! ### The body's run -/

/-- A write index inside the ring keeps the handler's body from its only fault. -/
theorem exists_irqBody_next {s : State} (h : s.drv.wr < s.drv.slots) : ∃ t, irqBody s = .next t := by
  unfold irqBody
  dsimp only
  split
  · exact ⟨_, rfl⟩
  · split
    · exact ⟨_, rfl⟩
    · exact ⟨_, if_pos h⟩

section Outcomes

variable (s : State)

/-! ### The updates the cases are made of, field by field -/

/-- The state in which the handler has read the record (H1). -/
def State.recordRead : State := s.enterIrq.rxRead.2

@[simp] theorem State.recordRead_params : s.recordRead.params = s.params := rfl
@[simp] theorem State.recordRead_drv : s.recordRead.drv = { s.drv with irqPend := false } := rfl
@[simp] theorem State.recordRead_chip : s.recordRead.chip = { s.chip with cs := false } := rfl
@[simp] theorem State.recordRead_env : s.recordRead.env = (Env.takeBytes Config.recBytes s.env).2 := s.enterIrq.rxRead_env
@[simp] theorem State.recordRead_hist : s.recordRead.hist = s.hist ++ [recordEvent s.params.chip s.rxRead.1] :=
  s.enterIrq.rxRead_hist

@[simp] theorem State.enqueue_params (r : List Byte) : (s.enqueue r).params = s.params := rfl
@[simp] theorem State.enqueue_drv (r : List Byte) : (s.enqueue r).drv = { s.drv with
    ring := Memory.writeAll s.drv.ring (slotAddr s.drv.wr 0) r, wr := (s.drv.wr + 1) % s.params.n } := rfl
@[simp] theorem State.enqueue_chip (r : List Byte) : (s.enqueue r).chip = s.chip := rfl
@[simp] theorem State.enqueue_env (r : List Byte) : (s.enqueue r).env = s.env := rfl
@[simp] theorem State.enqueue_hist (r : List Byte) : (s.enqueue r).hist = s.hist := rfl

@[simp] theorem State.collide_drv : s.collide.drv = { s.drv with
    enum := true, timerArmed := true, timerDeadline := s.env.takeTick.1 + s.params.tEnumMs } := by
  simp [State.collide]

@[simp] theorem State.collide_chip : s.collide.chip = (s.txFire (collisionRec s.params.chip s.drv.selfId)).chip := rfl

@[simp] theorem State.collide_hist : s.collide.hist = (s.txFire (collisionRec s.params.chip s.drv.selfId)).hist := rfl

@[simp] theorem State.collide_env : s.collide.env = s.env.takeTick.2 := by
  simp [State.collide]

/-- A TX_FIRE after the record's read, whether the record was enqueued before it or not. -/
theorem State.txFire_chip_firedChip {u : State} (hparams : u.params = s.params) (habsent : u.drv.absent = s.drv.absent)
    (hchip : u.chip = { s.chip with cs := false }) (r : List Byte) : (u.txFire r).chip = firedChip s r := by
  cases h : s.drv.absent with
  | true =>
    rw [h] at habsent
    rw [State.txFire_absent u r habsent, firedChip, h, hchip]
    rfl
  | false =>
    rw [h] at habsent
    rw [State.txFire_present u r habsent, firedChip, h, State.txRequest_chip, State.txLoad_chip, State.txLoad_params, hparams,
      hchip]
    rfl

theorem State.txFire_hist_fireEvents {u : State} (hparams : u.params = s.params) (habsent : u.drv.absent = s.drv.absent)
    (hhist : u.hist = s.hist ++ [recordEvent s.params.chip s.rxRead.1]) (r : List Byte) :
    (u.txFire r).hist = s.hist ++ recordEvent s.params.chip s.rxRead.1 :: fireEvents s r := by
  rw [State.txFire_hist, hparams, habsent, hhist, List.append_assoc]
  rfl

/-! ### What each case leaves -/

theorem handlerA_txFire :
    HandlerA s s.rxRead.1 (s.recordRead.txFire (ownIdRec s.params.chip s.drv.selfId)).leave := by
  refine ⟨by simp, ?_, ?_, by simp⟩
  · rw [State.leave_chip, State.txFire_chip_firedChip s] <;> simp
  · rw [State.leave_hist, State.txFire_hist_fireEvents s] <;> simp

theorem handlerB_pushSeen :
    HandlerB s s.rxRead.1 (s.recordRead.pushSeen (recId s.params.chip s.rxRead.1)).leave := by
  unfold State.pushSeen
  split
  case isTrue hroom =>
    replace hroom : s.drv.seen.length < s.params.seenCap := hroom
    simp [HandlerB, hroom]
  case isFalse hfull =>
    replace hfull : ¬ s.drv.seen.length < s.params.seenCap := hfull
    simp [HandlerB, hfull]

/-- Case C puts the record where the write index stood, as an enqueue does. -/
theorem handlerC_enqueue : HandlerC s s.rxRead.1 (s.recordRead.enqueue s.rxRead.1).leave := by
  have hslot := s.recordRead.enqueue_holds _ s.rxRead_length
  have houtside := s.recordRead.enqueue_outside _ s.rxRead_length
  exact ⟨by simp, hslot, houtside, by simp, by simp, by simp⟩

/-- Case D leaves the record where case C put it. -/
theorem handlerD_collide : HandlerD s s.rxRead.1 (s.recordRead.enqueue s.rxRead.1).collide.leave := by
  obtain ⟨-, hslot, houtside, -, -, -⟩ := handlerC_enqueue s
  have hring : (s.recordRead.enqueue s.rxRead.1).collide.leave.drv.ring = (s.recordRead.enqueue s.rxRead.1).leave.drv.ring := by
    rw [State.leave_drv, State.collide_drv, State.leave_drv]
  have hclock : s.env.clock ≤ (Env.takeBytes Config.recBytes s.env).2.takeTick.1 := by
    simpa using (Env.takeBytes Config.recBytes s.env).2.clock_le_takeTick
  refine ⟨by rw [hring]; simp, by simp, by simp, hclock, ?_, ?_, ?_, ?_⟩
  · intro i hi
    rw [hring]
    exact hslot i hi
  · intro a ha
    rw [hring]
    exact houtside a ha
  · rw [State.leave_chip, State.collide_chip, State.txFire_chip_firedChip s] <;> simp
  · rw [State.leave_hist, State.collide_hist, State.txFire_hist_fireEvents s] <;> simp

end Outcomes

/-! ### Which case a record takes -/

/-- The cases with their conditions, of which every record meets exactly one. -/
inductive HandlerOutcome (s : State) (r : List Byte) (t : State) : Prop
  | ownId (hrtr : recRtr s.params.chip r = true) (hm : idMatch s.params.chip s.drv.selfId r = true) (h : HandlerA s r t)
  | collect (hA : ¬ (recRtr s.params.chip r = true ∧ idMatch s.params.chip s.drv.selfId r = true))
      (henum : s.drv.enum = true) (hz : payloadLen s.params.chip r = 0) (h : HandlerB s r t)
  | collision (hrtr : recRtr s.params.chip r = false) (hm : idMatch s.params.chip s.drv.selfId r = true)
      (hB : ¬ (s.drv.enum = true ∧ payloadLen s.params.chip r = 0)) (h : HandlerD s r t)
  | enqueued (hm : idMatch s.params.chip s.drv.selfId r = false)
      (hB : ¬ (s.drv.enum = true ∧ payloadLen s.params.chip r = 0)) (h : HandlerC s r t)

/-- The handler's body, run from its entry, follows the conditions of the cases in the rule's order. -/
theorem handlerOutcome_of_irqBody {s t : State} (h : irqBody s.enterIrq = .next t) : HandlerOutcome s s.rxRead.1 t := by
  rcases irqBody_cases h with ⟨hA, rfl⟩ | ⟨hA, hB, rfl⟩ | ⟨hA, hB, -, ⟨hm, rfl⟩ | ⟨hm, rfl⟩⟩
  · obtain ⟨hrtr, hm⟩ := (caseA_iff _ _).1 hA
    exact .ownId hrtr hm (handlerA_txFire s)
  · rw [← Bool.not_eq_true, caseA_iff] at hA
    obtain ⟨henum, hz⟩ := (caseB_iff _ _).1 hB
    exact .collect hA henum hz (handlerB_pushSeen s)
  · rw [← Bool.not_eq_true, caseA_iff] at hA
    rw [← Bool.not_eq_true, caseB_iff] at hB
    exact .collision (Bool.eq_false_iff.2 fun hrtr => hA ⟨hrtr, hm⟩) hm hB (handlerD_collide s)
  · rw [← Bool.not_eq_true, caseB_iff] at hB
    exact .enqueued hm hB (handlerC_enqueue s)

/-- Settles O35: the handler ends in one of the four outcomes (`handlerOutcome_of_irqBody`), each of which decides all eight rows;
the frame is `irqBody_frame`'s. -/
theorem handlerDecisionTable : Obligations.HandlerDecisionTable := by
  intro s hctx hdeliverable hwr r c m z
  obtain ⟨t, ht⟩ := exists_irqBody_next (s := s.enterIrq) hwr
  have hframe := irqBody_frame ht
  have hmatch : idMatch c s.drv.selfId r = true ↔ m := idMatch_iff c s.drv.selfId r
  have hempty : payloadLen c r = 0 ↔ z := payloadLen_eq_zero_iff c r
  refine ⟨t, (exec_irq s hctx hdeliverable).trans ht, hframe.params, hframe.poll, hframe.result, hframe.program, hframe.ctx,
    hmatch, hempty, ?_⟩
  rw [← hmatch, ← hempty]
  cases handlerOutcome_of_irqBody ht with
  | ownId hrtr hm h => simp [r, c, hrtr, hm, h]
  | collect hA henum hz h =>
    have hrowA (hrtr : recRtr c r = true) (hm : idMatch c s.drv.selfId r = true) : HandlerA s r t :=
      absurd ⟨hrtr, hm⟩ hA
    simpa [r, c, henum, hz, h] using hrowA
  | collision hrtr hm hB h =>
    have hrowB (henum : s.drv.enum = true) (hz : payloadLen c r = 0) : HandlerB s r t := absurd ⟨henum, hz⟩ hB
    simpa [r, c, hrtr, hm, h] using hrowB
  | enqueued hm hB h =>
    have hrowRemote (hrtr : recRtr c r = true) (henum : s.drv.enum = true) : HandlerB s r t :=
      absurd ⟨henum, payloadLen_remote hrtr⟩ hB
    have hrowNormal (_ : recRtr c r = false) (henum : s.drv.enum = true) (hz : payloadLen c r = 0) : HandlerB s r t :=
      absurd ⟨henum, hz⟩ hB
    simpa [r, c, hm, h] using And.intro hrowRemote hrowNormal

end Sys2Proof.Machine
end

section
/-! SUPPORT. The text of a receive record (44_receive_path R212, R213): the field its identifier digits write, and the fields the
shape check reads back. -/

namespace Sys2Proof.Machine

/-- A field made of two bytes, as R213 writes it. -/
theorem append_setWidth_eq_shiftLeft_or (x y : Byte) :
    (x ++ y).setWidth 32 = x.setWidth 32 <<< 8 ||| y.setWidth 32 := by
  apply BitVec.eq_of_getLsbD_eq
  intro i hi
  simp only [BitVec.getLsbD_setWidth, BitVec.getLsbD_append, BitVec.getLsbD_or, BitVec.getLsbD_shiftLeft, hi]
  by_cases hlow : i < 8
  · simp [hlow]
  · simp [hlow, show i - 8 < 32 by omega, BitVec.getLsbD_of_ge y i (by omega)]

theorem bytes4_append_bytes (a b c d : Byte) : bytes4 (a ++ b ++ c ++ d) = [a, b, c, d] := by
  have hpair : a ++ b ++ c ++ d = (a ++ b) ++ (c ++ d) := BitVec.append_assoc
  rw [hpair, bytes4_append, bytes2_append, bytes2_append]
  rfl

/-- The identifier field of a record's text: an extended record's four bytes raw, a standard one's id pair. -/
def recField (c : Chip) (b : List Byte) : BitVec 32 :=
  if recExt c b then byteAt b 0 ++ byteAt b 1 ++ byteAt b 2 ++ byteAt b 3
  else (byteAt b 0 ++ (byteAt b 1 &&& 0xE0)).setWidth 32

/-- The data field of a record's text: a remote record has none. -/
def recTextData (c : Chip) (b : List Byte) : List Byte := if recRtr c b then [] else recData c b

theorem recTextData_length (c : Chip) (b : List Byte) : (recTextData c b).length ≤ 8 := by
  unfold recTextData
  split
  · exact Nat.zero_le _
  · exact recData_length c b

theorem recToWire_standard {c : Chip} {b : List Byte} (h : recExt c b = false) :
    recToWire c b = frameText false [byteAt b 0, byteAt b 1 &&& 0xE0] (recRtr c b) (recTextData c b) := by
  rw [recToWire, h]
  rfl

theorem recToWire_extended {c : Chip} {b : List Byte} (h : recExt c b = true) :
    recToWire c b = frameText true [byteAt b 0, byteAt b 1, byteAt b 2, byteAt b 3] (recRtr c b) (recTextData c b) := by
  rw [recToWire, h]
  rfl

/-- R213: the shape check accepts the text of every record and returns the record's own fields. -/
theorem checkShape_recToWire (c : Chip) (b : List Byte) :
    checkShape (recToWire c b) = .ok ⟨recExt c b, recField c b, recRtr c b, recTextData c b⟩ := by
  cases h : recExt c b with
  | false =>
    rw [recToWire_standard h, ← bytes2_append, checkShape_S _ _ _ (recTextData_length c b), recField, h]
    rfl
  | true =>
    rw [recToWire_extended h, ← bytes4_append_bytes, checkShape_X _ _ _ (recTextData_length c b), recField, h]
    rfl

theorem decodeText_recToWire (c : Chip) (b : List Byte) :
    decodeText (recToWire c b) = .ok (frameOf ⟨recExt c b, recField c b, recRtr c b, recTextData c b⟩) := by
  rw [decodeText, checkShape_recToWire]

/-- Settles O12: DECODE answers the record's own fields (`decodeText_recToWire`); what is left is to read them off. -/
theorem recordTextWellFormed : Obligations.RecordTextWellFormed := by
  intro c b
  refine ⟨⟨_, checkShape_recToWire c b⟩, ⟨_, decodeText_recToWire c b, rfl, rfl, ?_, ?_, ?_, ?_⟩, ?_, rfl⟩
  · intro hext
    simp [frameOf, recField, hext, Config.idShift, append_setWidth_eq_shiftLeft_or]
  · intro hext
    simp [frameOf, recField, hext]
  · intro hrtr
    simp [frameOf, recTextData, hrtr]
  · intro hrtr
    simp [frameOf, recTextData, hrtr]
  · intro hext
    rw [recToWire_standard hext]
    rfl

end Sys2Proof.Machine
end

section
/-! SUPPORT. The receive record's accessors and the transmit record (10_state R48, R49). -/

namespace Sys2Proof.Machine

/-! ### Receive records, under every profile -/

theorem recLen_le (c : Chip) (r : List Byte) : recLen c r ≤ 8 := Nat.min_le_right _ _

theorem recData_length_eq (c : Chip) (r : List Byte) : (recData c r).length = recLen c r := by
  simp [recData]

/-! ### Receive records, in the default layout -/

section DefaultRx

variable {c : Chip} (h : c.rx = Config.defaultRx) (r : List Byte)
include h

theorem recExt_defaultRx : recExt c r = (byteAt r 1).getLsbD 3 := by
  have hbit : ∀ y : Byte, (y &&& 0x08 != 0) = y.getLsbD 3 := by decide
  rw [recExt, h]
  exact hbit _

theorem recRtr_defaultRx :
    recRtr c r = if recExt c r then (byteAt r 4).getLsbD 6 else (byteAt r 1).getLsbD 4 := by
  have hx : ∀ y : Byte, (y &&& 0x40 != 0) = y.getLsbD 6 := by decide
  have hs : ∀ y : Byte, (y &&& 0x10 != 0) = y.getLsbD 4 := by decide
  rw [recRtr, h]
  cases hext : recExt c r with
  | false =>
    rw [recExt, h, bne_eq_false_iff_eq] at hext
    exact (congrArg (· != 0) (if_pos hext)).trans (hs _)
  | true =>
    rw [recExt, h, bne_iff_ne] at hext
    exact (congrArg (· != 0) (if_neg hext)).trans (hx _)

theorem recLen_defaultRx : recLen c r = min ((byteAt r 4).toNat % 16) 8 := by
  rw [recLen, h]
  congr 1
  exact (BitVec.toNat_and ..).trans (Nat.and_two_pow_sub_one_eq_mod _ 4)

theorem recId_defaultRx : recId c r = ⟨byteAt r 0, byteAt r 1 &&& 0xE0⟩ := by
  rw [recId, h]
  rfl

theorem evalByte_data_defaultRx {i : Nat} (hi : i < 8) :
    evalByte r (c.rx.data.getD i (.lit 0)) = byteAt r (5 + i) := by
  rw [h]
  interval_cases i <;> rfl

theorem recData_defaultRx (hr : r.length = 13) : recData c r = (r.drop 5).take (recLen c r) := by
  have hlen := recLen_le c r
  apply List.ext_getElem
  · simp [recData_length_eq, hr]
    omega
  · intro i hi _
    rw [recData_length_eq] at hi
    have hi8 : i < 8 := by omega
    have hbyte : 5 + i < r.length := by omega
    simp only [recData, List.getElem_map, List.getElem_range, evalByte_data_defaultRx h r hi8]
    simp [byteAt, hbyte]

end DefaultRx

/-! ### Transmit records, under every profile -/

section Transmit

variable (c : Chip) (ext : Bool) (x : BitVec 32) (rtr : Bool) (data : List Byte)

theorem mkTxRec_length : (mkTxRec c ext x rtr data).length = 5 + data.length := by
  simp [mkTxRec]
  omega

/-- A standard field's reserved bits are no input of the record (log 3). -/
theorem mkTxRec_standard_reservedBits : mkTxRec c false x rtr data = mkTxRec c false (x &&& 0xFFE0) rtr data := by
  have hinputs : txInputs false x rtr data = txInputs false (x &&& 0xFFE0) rtr data := by
    simp [txInputs, BitVec.and_assoc]
  rw [mkTxRec, hinputs, mkTxRec]

end Transmit

/-! ### Transmit records, in the default layout -/

section DefaultTx

variable {c : Chip} (h : c.tx = Config.defaultTx) (x : BitVec 32) (rtr : Bool) (data : List Byte)
include h

theorem mkTxRec_lengthByte_defaultTx (ext : Bool) :
    byteAt (mkTxRec c ext x rtr data) 4 = ((if rtr then 0x40 else 0) ||| BitVec.ofNat 8 data.length) := by
  rw [mkTxRec, h]
  cases rtr <;> rfl

theorem mkTxRec_id_standard_defaultTx :
    (mkTxRec c false x rtr data).take 4 = [x.extractLsb' 8 8, x.extractLsb' 0 8 &&& 0xE0, 0, 0] := by
  have hhi : (x &&& 0xFFE0).extractLsb' 8 8 = x.extractLsb' 8 8 := by
    rw [BitVec.extractLsb'_and]
    exact BitVec.and_allOnes
  have hlo : (x &&& 0xFFE0).extractLsb' 0 8 &&& 0xE0 = x.extractLsb' 0 8 &&& 0xE0 := by
    rw [BitVec.extractLsb'_and, BitVec.and_assoc]
    rfl
  rw [mkTxRec, h, ← hhi, ← hlo]
  rfl

theorem mkTxRec_id_extended_defaultTx :
    (mkTxRec c true x rtr data).take 4
      = [x.extractLsb' 24 8, x.extractLsb' 16 8 ||| 0x08, x.extractLsb' 8 8, x.extractLsb' 0 8] := by
  rw [mkTxRec, h]
  rfl

end DefaultTx

/-- Settles O13: the accessors and the record under every profile, then in the two default layouts. -/
theorem recordLayouts : Obligations.RecordLayouts := by
  refine ⟨fun c r own => ⟨recLen_le c r, recData_length_eq c r, (IdPair.clean_iff _).1 (recId_clean c r), idMatch_iff c own r,
      payloadLen_remote, payloadLen_normal, fun h => ⟨recExt_defaultRx h r, recRtr_defaultRx h r, recLen_defaultRx h r,
        recId_defaultRx h r, recData_defaultRx h r⟩⟩, ?_⟩
  intro c ext x rtr data hdata
  have hok : txRecordOk (mkTxRec c ext x rtr data) = true := by
    simp [txRecordOk, mkTxRec_length]
    omega
  refine ⟨mkTxRec_length c ext x rtr data, hok, rfl, mkTxRec_standard_reservedBits c x rtr data, fun h => ⟨
    mkTxRec_lengthByte_defaultTx h x rtr data ext, ?_, ?_⟩⟩
  · rintro rfl
    exact mkTxRec_id_standard_defaultTx h x rtr data
  · rintro rfl
    exact mkTxRec_id_extended_defaultTx h x rtr data

end Sys2Proof.Machine
end

section
/-! SUPPORT. RUN_ENUMERATION with every identifier taken (45_enumeration R224, R226): when the timer is due, and what its firing
leaves where no candidate is free. -/

namespace Sys2Proof.Machine

theorem State.timerDue_iff (s : State) (t : Nat) :
    s.timerDue t = true ↔ s.drv.mode = .ready ∧ s.drv.timerArmed = true ∧ s.drv.timerDeadline ≤ t := by
  simp [State.timerDue, and_assoc]

/-- The firing where no candidate is free: E3 leaves the state alone (R226), so what remains is the disarming, E1 and E4. -/
theorem timerFire_of_firstFree_none {s : State} (h : firstFree s.drv.seen = none) :
    timerFire s = { s with
      ctx := .poll
      drv := { s.drv with enum := false, seen := [], timerArmed := false } } := by
  simp only [timerFire, enumerationBody, State.setDrv_drv, h]
  rfl

/-- Settles O43: the timer is due, so it fires (`exec_enumeration`); no candidate is free (`firstFree_none`), so the firing adopts
none. -/
theorem enumerationAllTaken : Obligations.EnumerationAllTaken := by
  intro s hctx hready harmed hdue htaken
  have hfires : exec .runEnumeration s = .next (timerFire s.now.2) :=
    exec_enumeration s hctx hready ((State.timerDue_iff s.now.2 s.now.1).2 ⟨hready, harmed, hdue⟩)
  have hnone : firstFree s.now.2.drv.seen = none := firstFree_none s.drv.seen htaken
  rw [hfires, timerFire_of_firstFree_none hnone]
  rfl

end Sys2Proof.Machine
end

section
/-! SUPPORT. The falling edge (60_exceptions R251): when it sets the pending flag, and when it is lost. -/

namespace Sys2Proof.Machine

@[simp] theorem takeMove_edge (s : State) : takeMove .edge s = .next s.fallingEdge := rfl

theorem State.fallingEdge_of_kept {s : State} (henabled : s.drv.irqEnabled = true)
    (hkept : s.drv.irqMask = false ∨ s.params.maskedEdge = .latch) :
    s.fallingEdge = { s with drv := { s.drv with irqPend := true } } := by
  unfold State.fallingEdge
  rcases hkept with hunmasked | hlatch
  · simp [henabled, hunmasked, State.setDrv]
  · simp [henabled, hlatch, State.setDrv]

theorem State.fallingEdge_of_disabled {s : State} (hdisabled : s.drv.irqEnabled = false) : s.fallingEdge = s := by
  simp [State.fallingEdge, hdisabled]

theorem State.fallingEdge_of_dropped {s : State} (hmasked : s.drv.irqMask = true) (hdrop : s.params.maskedEdge = .drop) :
    s.fallingEdge = s := by
  have hnotLatch : (MaskedEdge.drop == .latch) = false := by decide
  simp [State.fallingEdge, hmasked, hdrop, hnotLatch]

/-- Settles O46: the edge is lost where the callback is not registered, kept unmasked or latching, lost masked and dropping. -/
theorem fallingEdgePending : Obligations.FallingEdgePending := by
  intro s
  refine ⟨fun hdisabled => ?_, fun henabled hkept => ?_, fun _ hmasked hdrop => ?_⟩
  · rw [takeMove_edge, State.fallingEdge_of_disabled hdisabled]
  · rw [takeMove_edge, State.fallingEdge_of_kept henabled hkept]
  · rw [takeMove_edge, State.fallingEdge_of_dropped hmasked hdrop]

end Sys2Proof.Machine
end

section
/-! SUPPORT. The issue stream (log 2): each operand form reads back what the encoder writes, and leaves what follows. -/

namespace Sys2Proof.Machine

/-! ### Numbers and fields -/

theorem word4_bytes4 (x : BitVec 32) :
    word4 (x.extractLsb' 24 8) (x.extractLsb' 16 8) (x.extractLsb' 8 8) (x.extractLsb' 0 8) = x := by
  rw [word4, BitVec.extractLsb'_append_extractLsb'_eq_extractLsb' (by decide),
    BitVec.extractLsb'_append_extractLsb'_eq_extractLsb' (by decide),
    BitVec.extractLsb'_append_extractLsb'_eq_extractLsb' (by decide), BitVec.extractLsb'_eq_self]

/-- `k` digits write a number up to a multiple of `256 ^ k`. -/
theorem numberOf_bytesOf (k n : Nat) : numberOf (bytesOf k n) = n % 256 ^ k := by
  induction k generalizing n with
  | zero => simp [bytesOf, numberOf, Nat.mod_one]
  | succ k ih =>
    calc numberOf (bytesOf (k + 1) n)
      _ = n % 256 + 256 * numberOf (bytesOf k (n / 256)) := by simp [bytesOf, numberOf]
      _ = n % 256 ^ (k + 1) := by rw [ih, Nat.pow_succ', Nat.mod_mul]

theorem numberOf_digitsOf (n : Nat) : numberOf (digitsOf n) = n := by
  rw [digitsOf, numberOf_bytesOf]
  apply Nat.mod_eq_of_lt
  calc n < 2 ^ (Nat.log2 n + 1) := Nat.lt_log2_self
    _ ≤ 2 ^ (8 * (Nat.log2 n / 8 + 1)) := Nat.pow_le_pow_right (by decide) (by omega)
    _ = 256 ^ (Nat.log2 n / 8 + 1) := by rw [Nat.pow_mul]

/-! ### Counted bytes and strings -/

theorem takeExact_append (bs rest : List Byte) : takeExact bs.length (bs ++ rest) = .ok (bs, rest) := by
  simp [takeExact]

theorem decodeCounted_counted (mk : List Byte → Instr) {bs : List Byte} (h : bs.length ≤ 255) (rest : List Byte) :
    decodeCounted mk (counted bs ++ rest) = .ok (mk bs, rest) := by
  have hcount : (BitVec.ofNat 8 bs.length).toNat = bs.length := Nat.mod_eq_of_lt (by omega)
  simp only [counted, List.cons_append, decodeCounted, hcount, takeExact_append]

theorem decodeRecord_countedRecord (mk : List Byte → Instr) {r : List Byte} (h : txRecordOk r = true) (rest : List Byte) :
    decodeRecord mk (countedRecord r ++ rest) = .ok (mk r, rest) := by
  simp only [txRecordOk, Bool.and_eq_true, decide_eq_true_eq] at h
  have hcount : (BitVec.ofNat 8 (r.length - 5)).toNat + 5 = r.length := by
    rw [BitVec.toNat_ofNat]
    omega
  simp only [countedRecord, List.cons_append, decodeRecord, hcount, takeExact_append]

theorem decodeChars_encodeChars (w rest : List Byte) : decodeChars (encodeChars w ++ rest) = .ok (w, rest) := by
  induction w with
  | nil => cases rest <;> rfl
  | cons c w ih =>
    have hstep : encodeChars (c :: w) ++ rest = 1 :: c :: (encodeChars w ++ rest) := rfl
    rw [hstep, decodeChars, if_neg (by decide), if_pos rfl, ih]

theorem decodeString_encodeChars (mk : WireString → Instr) (w rest : List Byte) :
    decodeString mk (encodeChars w ++ rest) = .ok (mk w, rest) := by
  rw [decodeString, decodeChars_encodeChars]

/-! ### Wire frames -/

/-- The text up to the first `;` is split off. -/
theorem splitFrame_append {w : WireString} (h : ∀ x ∈ w, x ≠ chSemi) (rest : List Byte) :
    splitFrame (w ++ chSemi :: rest) = some (w ++ [chSemi], rest) := by
  induction w with
  | nil => rfl
  | cons c w ih =>
    rw [List.forall_mem_cons] at h
    rw [List.cons_append, splitFrame, if_neg h.1, ih h.2]
    rfl

theorem ne_chSemi_of_isHex {x : Byte} (h : isHex x = true) : x ≠ chSemi := by
  rintro rfl
  exact absurd h (by decide)

/-- A frame's text has its only `;` at its end. -/
theorem splitFrame_frameText (ext : Bool) (idBytes : List Byte) (rtr : Bool) (data rest : List Byte) :
    splitFrame (frameText ext idBytes rtr data ++ rest) = some (frameText ext idBytes rtr data, rest) := by
  have hbody : ∀ x ∈ chColon :: (if ext then chX else chS) :: (hexBytes idBytes ++ (if rtr then chR else chN) :: hexBytes data),
      x ≠ chSemi := by
    intro x hx
    simp only [List.mem_cons, List.mem_append] at hx
    rcases hx with rfl | rfl | hx | rfl | hx
    · decide
    · cases ext <;> decide
    · exact ne_chSemi_of_isHex (hexBytes_all _ x hx)
    · cases rtr <;> decide
    · exact ne_chSemi_of_isHex (hexBytes_all _ x hx)
  simpa [frameText] using splitFrame_append hbody rest

theorem decodeFrame_frameText {ext rtr : Bool} {idBytes data : List Byte} {c : Parsed}
    (h : checkShape (frameText ext idBytes rtr data) = .ok c) (rest : List Byte) :
    decodeFrame (frameText ext idBytes rtr data ++ rest) = .ok (wireInstr c, rest) := by
  rw [decodeFrame, splitFrame_frameText]
  simp only [h]

/-- A standard frame of the stream is the row of its field and data. -/
theorem decode_frameText_standard (f : BitVec 16) (rtr : Bool) {data : List Byte} (h : dataOk data = true) (rest : List Byte) :
    decode (frameText false (bytes2 f) rtr data ++ rest) = .ok (if rtr then .wireSR f data else .wireSN f data, rest) := by
  refine (decodeFrame_frameText (checkShape_S f rtr data (of_decide_eq_true h)) rest).trans ?_
  cases rtr <;> simp [wireInstr]

/-- An extended frame of the stream is the row of its field and data. -/
theorem decode_frameText_extended (x : BitVec 32) (rtr : Bool) {data : List Byte} (h : dataOk data = true) (rest : List Byte) :
    decode (frameText true (bytes4 x) rtr data ++ rest) = .ok (wireInstr ⟨true, x, rtr, data⟩, rest) :=
  decodeFrame_frameText (checkShape_X x rtr data (of_decide_eq_true h)) rest

/-! ### The rows with several operands -/

theorem payload_le_255 {payload : List Byte} (h : payloadOk payload = true) : payload.length ≤ 255 :=
  (of_decide_eq_true h).trans (by decide)

theorem decode_encode_encode {ext : Bool} {id : BitVec 32} {payload : List Byte} (opcode : Byte)
    (h : payloadOk payload = true) (rest : List Byte) :
    decode (encode (.encode ext id opcode payload) ++ rest) = .ok (.encode ext id opcode payload, rest) := by
  cases ext
  case false =>
    refine (decodeCounted_counted _ (payload_le_255 h) rest).trans ?_
    rw [word4_bytes4]
  case true =>
    refine (decodeCounted_counted _ (payload_le_255 h) rest).trans ?_
    rw [word4_bytes4]

theorem decode_encode_initDriver (b c i : BitVec 32) (hz : Nat) (rest : List Byte) :
    decode (encode (.initDriver b c i hz) ++ rest) = .ok (.initDriver b c i hz, rest) := by
  refine (decodeString_encodeChars _ (digitsOf hz) rest).trans ?_
  rw [word4_bytes4, word4_bytes4, word4_bytes4, numberOf_digitsOf]

/-- Settles O1: each row by the lemma about its operand form, since its key selects that form. -/
theorem decodeReadsEncodedOperation : Obligations.DecodeReadsEncodedOperation := by
  intro i rest h
  cases i with
  | encode ext id opcode payload => exact decode_encode_encode opcode (Bool.and_eq_true_iff.1 h).2 rest
  | decode w => exact decodeString_encodeChars .decode w rest
  | initDriver b c i hz => exact decode_encode_initDriver b c i hz rest
  | send w => exact decodeString_encodeChars .send w rest
  | txFire r => exact decodeRecord_countedRecord .txFire h rest
  | txLoad r => exact decodeRecord_countedRecord .txLoad h rest
  | wireSN f data => exact decode_frameText_standard f false h rest
  | wireSR f data => exact decode_frameText_standard f true h rest
  | wireXN x data => exact decode_frameText_extended x false h rest
  | wireXR x data => exact decode_frameText_extended x true h rest
  | txRequest p => cases p <;> rfl
  | receive | available | irqHandler | runEnumeration | ownId | collisionRtr => rfl
  | regRead | regWrite | chipReset | rxRead | txAbort | modeSet => rfl
  | _ payload => exact decodeCounted_counted _ (payload_le_255 h) rest

end Sys2Proof.Machine
end

section
/-! SUPPORT. POLL's micro-step (20_memory R71), said once: what it does to the block's own state, to POLL's position and to the
result. -/

namespace Sys2Proof.Machine

/-- POLL is inside SEND (43_send R181). -/
def PollPos.inSend : PollPos → Bool
  | .sendAbsent _ | .sendRecord _ | .sendMask _ | .sendLoad _ | .sendRequest _ | .sendReadback | .sendClock _
  | .sendPoll _ _ | .sendTime _ _ | .sendAbort _ | .sendGiveUp => true
  | _ => false

/-- POLL is inside RECEIVE (44_receive_path R210). -/
def PollPos.inReceive : PollPos → Bool
  | .recvCompare _ | .recvCopy _ | .recvAdvance _ | .recvReturn _ => true
  | _ => false

theorem PollPos.inInit_of_inSend {p : PollPos} (h : p.inSend = true) : p.inInit = false := by
  cases p <;> simp_all [inSend, inInit]

theorem PollPos.ne_idle_of_inSend {p : PollPos} (h : p.inSend = true) : p ≠ .idle := by
  rintro rfl
  cases h

/-- What a micro-step of POLL does, by the operation it belongs to and by whether that operation goes on or returns. -/
inductive MicroStep (s t : State) : Prop
  | rests (hp : s.poll = .idle) (h : t = s)
  /-- Steps 1 to 6 of INITIALIZE. -/
  | initGoes (hp : s.poll.inInit = true) (hq : t.poll.inInit = true) (hne : t.poll ≠ .initRegister) (hdrv : t.drv = s.drv)
  | initFails (hp : s.poll.inInit = true) (hq : t.poll = .idle) (hdrv : t.drv = s.drv)
      (hres : t.result = some (.inited (.error .controllerNotPresent)))
  /-- Step 7. -/
  | initAllocates (stored : Option IdPair) (hstored : stored = none ∨ stored = s.env.storage) (hp : s.poll = .initState)
      (hq : t.poll = .initRegister) (hdrv : t.drv = s.drv.initialized s.params stored)
  /-- Step 8. -/
  | initReturns (hp : s.poll = .initRegister) (h : t = initRegisterStep s)
  /-- S2 to S6: the mask is left alone or, in S4, set. -/
  | sendGoes (hp : s.poll.inSend = true) (hq : t.poll.inSend = true) (hdrv : t.drv = { s.drv with irqMask := t.drv.irqMask })
      (hmask : t.drv.irqMask = s.drv.irqMask ∧ t.poll.holdsMask = s.poll.holdsMask
        ∨ t.drv.irqMask = true ∧ t.poll.holdsMask = true)
  /-- The exits of SEND: behind S4 the mask is cleared. -/
  | sendReturns (r : Except CtbError Unit) (hp : s.poll.inSend = true) (hq : t.poll = .idle)
      (hdrv : t.drv = { s.drv with absent := t.drv.absent, irqMask := t.drv.irqMask })
      (habsent : s.drv.absent = true → t.drv.absent = true)
      (hmask : t.drv.irqMask = false ∨ s.poll.holdsMask = false ∧ t.drv.irqMask = s.drv.irqMask)
      (hres : t.result = some (.sent r)) (herr : ∀ e, r = .error e → e = .controllerNotPresent ∨ e = .transmitTimeout)
  /-- V2 on an empty ring. -/
  | recvEmpty (w0 : Nat) (hp : s.poll = .recvCompare w0) (h : t = s.ret (.received none))
  /-- V2 on any other. -/
  | recvStarts (w0 : Nat) (hp : s.poll = .recvCompare w0) (hne : w0 ≠ s.drv.rd) (h : t = s.goto (.recvCopy []))
  /-- V3, with bytes of the slot left to copy. -/
  | recvCopies (b b' : List Byte) (hp : s.poll = .recvCopy b) (hlen : b'.length < Config.recBytes)
      (h : t = s.goto (.recvCopy b'))
  /-- V3, the slot's last byte. -/
  | recvCopied (b b' : List Byte) (hp : s.poll = .recvCopy b) (h : t = s.goto (.recvAdvance b'))
  /-- V4. -/
  | recvAdvances (b : List Byte) (hp : s.poll = .recvAdvance b) (h : t = recvAdvanceStep b s)
  /-- V5. -/
  | recvReturns (b : List Byte) (hp : s.poll = .recvReturn b) (h : t = recvReturnStep b s)

/-! ### The steps with two ways on -/

theorem initStatusStep_microStep {s : State} (hp : s.poll = .initStatus) : MicroStep s (initStatusStep s) := by
  unfold initStatusStep
  dsimp only
  split
  · exact .initFails (by rw [hp]; rfl) rfl rfl rfl
  · exact .initGoes (by rw [hp]; rfl) rfl (by simp) rfl

theorem initWritesStep_microStep {s : State} {ws : List (Byte × Byte)} (hp : s.poll = .initWrites ws) :
    MicroStep s (initWritesStep ws s) := by
  cases ws <;> exact .initGoes (by rw [hp]; rfl) rfl (by simp [initWritesStep]) rfl

theorem modeReadStep_microStep {s : State} {t0 : Nat} (hp : s.poll = .modeRead t0) : MicroStep s (modeReadStep t0 s) := by
  unfold modeReadStep
  dsimp only
  split <;> exact .initGoes (by rw [hp]; rfl) rfl (by simp) rfl

theorem modeTimeStep_microStep {s : State} {t0 : Nat} (hp : s.poll = .modeTime t0) : MicroStep s (modeTimeStep t0 s) := by
  unfold modeTimeStep
  split
  · exact .initFails (by rw [hp]; rfl) rfl rfl rfl
  · exact .initGoes (by rw [hp]; rfl) rfl (by simp) rfl

/-- Step 7 takes what storage holds, or, where the read fails, nothing. -/
theorem loadSelfId_value_cases (s : State) : s.loadSelfId.1 = none ∨ s.loadSelfId.1 = s.env.storage := by
  rw [State.loadSelfId_value]
  split
  · exact .inr rfl
  · exact .inl rfl

theorem sendAbsentStep_microStep {s : State} {c : Parsed} (hp : s.poll = .sendAbsent c) :
    MicroStep s (sendAbsentStep c s) := by
  unfold sendAbsentStep
  split
  · exact .sendReturns _ (by rw [hp]; rfl) rfl rfl id (.inr ⟨by rw [hp]; rfl, rfl⟩) rfl fun e he => .inl (by cases he; rfl)
  · exact .sendGoes (by rw [hp]; rfl) rfl rfl (.inl ⟨rfl, by rw [hp]; rfl⟩)

theorem sendRequestStep_microStep {s : State} {a : Attempt} (hp : s.poll = .sendRequest a) :
    MicroStep s (sendRequestStep a s) := by
  cases a <;> exact .sendGoes (by rw [hp]; rfl) rfl rfl (.inl ⟨rfl, by rw [hp]; rfl⟩)

theorem sendReadbackStep_microStep {s : State} (hp : s.poll = .sendReadback) : MicroStep s (sendReadbackStep s) := by
  unfold sendReadbackStep
  dsimp only
  split
  · exact .sendReturns (.error .controllerNotPresent) (by rw [hp]; rfl) rfl (by simp [State.raiseSend])
      (by simp [State.raiseSend]) (.inl (by simp [State.raiseSend])) rfl fun e he => .inl (by cases he; rfl)
  · exact .sendGoes (by rw [hp]; rfl) rfl rfl (.inl ⟨rfl, by rw [hp]; rfl⟩)

theorem sendPollStep_microStep {s : State} {a : Attempt} {t0 : Nat} (hp : s.poll = .sendPoll a t0) :
    MicroStep s (sendPollStep a t0 s) := by
  unfold sendPollStep
  dsimp only
  split
  · exact .sendReturns _ (by rw [hp]; rfl) rfl rfl id (.inl rfl) rfl fun e he => by cases he
  · exact .sendGoes (by rw [hp]; rfl) rfl rfl (.inl ⟨rfl, by rw [hp]; rfl⟩)

theorem sendTimeStep_microStep {s : State} {a : Attempt} {t0 : Nat} (hp : s.poll = .sendTime a t0) :
    MicroStep s (sendTimeStep a t0 s) := by
  unfold sendTimeStep
  split <;> exact .sendGoes (by rw [hp]; rfl) rfl rfl (.inl ⟨rfl, by rw [hp]; rfl⟩)

theorem sendAbortStep_microStep {s : State} {a : Attempt} (hp : s.poll = .sendAbort a) : MicroStep s (sendAbortStep a s) := by
  cases a <;> exact .sendGoes (by rw [hp]; rfl) rfl rfl (.inl ⟨rfl, by rw [hp]; rfl⟩)

theorem sendGiveUpStep_microStep {s : State} (hp : s.poll = .sendGiveUp) : MicroStep s (sendGiveUpStep s) :=
  .sendReturns _ (by rw [hp]; rfl) rfl rfl id (.inl rfl) rfl fun e he => .inr (by cases he; rfl)

theorem recvCompareStep_microStep {s : State} {w0 : Nat} (hp : s.poll = .recvCompare w0) :
    MicroStep s (recvCompareStep w0 s) := by
  unfold recvCompareStep
  split
  case isTrue => exact .recvEmpty w0 hp rfl
  case isFalse hne => exact .recvStarts w0 hp hne rfl

/-- Everything a micro-step of POLL can do. -/
theorem pollContinue_microStep {s t : State} (h : pollContinue s = .next t) : MicroStep s t := by
  unfold pollContinue at h
  cases hp : s.poll <;> rw [hp] at h <;> dsimp only at h
  case recvCopy b =>
    unfold recvCopyStep at h
    split at h
    · cases h
      split
      · exact .recvCopies b _ hp ‹_› rfl
      · exact .recvCopied b _ hp rfl
    · cases h
  all_goals cases h
  case idle => exact .rests hp rfl
  case initReset | modeWrite | modeClock => exact .initGoes (by rw [hp]; rfl) rfl (by simp [initResetStep, modeWriteStep, modeClockStep]) rfl
  case initStatus => exact initStatusStep_microStep hp
  case initWrites => exact initWritesStep_microStep hp
  case modeRead => exact modeReadStep_microStep hp
  case modeTime => exact modeTimeStep_microStep hp
  case initState => exact .initAllocates _ (loadSelfId_value_cases s) hp rfl rfl
  case initRegister => exact .initReturns hp rfl
  case sendAbsent => exact sendAbsentStep_microStep hp
  case sendRecord | sendLoad | sendClock => exact .sendGoes (by rw [hp]; rfl) rfl rfl (.inl ⟨rfl, by rw [hp]; rfl⟩)
  case sendMask => exact .sendGoes (by rw [hp]; rfl) rfl rfl (.inr ⟨rfl, rfl⟩)
  case sendRequest => exact sendRequestStep_microStep hp
  case sendReadback => exact sendReadbackStep_microStep hp
  case sendPoll => exact sendPollStep_microStep hp
  case sendTime => exact sendTimeStep_microStep hp
  case sendAbort => exact sendAbortStep_microStep hp
  case sendGiveUp => exact sendGiveUpStep_microStep hp
  case recvCompare => exact recvCompareStep_microStep hp
  case recvAdvance b => exact .recvAdvances b hp rfl
  case recvReturn b => exact .recvReturns b hp rfl

end Sys2Proof.Machine
end

section
/-! SUPPORT. The invariants of the memories and of the interrupt mask (10_state R23, 43_send R189): each kind of move keeps them. -/

namespace Sys2Proof.Machine

/-! ### Moves that touch neither memory -/

/-- The canonical form depends on the three memories alone. -/
theorem MemOk.of_eq {s t : State} (hs : MemOk s) (hring : t.drv.ring = s.drv.ring) (hchip : t.chip = s.chip) : MemOk t := by
  rw [MemOk, hring, hchip]
  exact hs

theorem State.fallingEdge_drv (s : State) :
    s.fallingEdge.drv = { s.drv with irqPend := s.fallingEdge.drv.irqPend } := by
  unfold State.fallingEdge
  split <;> rfl

@[simp] theorem State.fallingEdge_chip (s : State) : s.fallingEdge.chip = s.chip := by
  unfold State.fallingEdge
  split <;> rfl

@[simp] theorem State.fallingEdge_params (s : State) : s.fallingEdge.params = s.params := by
  unfold State.fallingEdge
  split <;> rfl

@[simp] theorem State.fallingEdge_poll (s : State) : s.fallingEdge.poll = s.poll := by
  unfold State.fallingEdge
  split <;> rfl

@[simp] theorem State.fallingEdge_env (s : State) : s.fallingEdge.env = s.env := by
  unfold State.fallingEdge
  split <;> rfl

@[simp] theorem State.fallingEdge_hist (s : State) : s.fallingEdge.hist = s.hist := by
  unfold State.fallingEdge
  split <;> rfl

/-- Settles O55: the frames of the handler, of POLL's micro-steps and of every other row keep the form; the other moves touch no
memory, and a restart empties the ring. -/
theorem stepKeepsMemoryCanonical : Obligations.StepKeepsMemoryCanonical := by
  intro s t
  refine step_preserves (P := MemOk) ?handler ?fires ?initStarts ?plain ?micro ?turn ?program ?enters ?now ?edge ?settles ?restarts
  case handler =>
    rintro u t ⟨hring, hregs, hbuf⟩ - h
    have hf := irqBody_frame h
    exact ⟨hf.ring hring, hf.regs hregs, hf.txBuf hbuf⟩
  case fires =>
    intro u hu _
    have hf := timerFire_frame u.now.2
    exact hu.of_eq (by rw [hf.drv]; rfl) hf.chip
  case plain =>
    rintro u t ⟨hring, hregs, hbuf⟩ hf
    exact ⟨by rw [hf.drv]; exact hring, hf.regs hregs, hf.txBuf hbuf⟩
  case micro =>
    rintro u t ⟨hring, hregs, hbuf⟩ - h
    have hf := pollContinue_frame h
    exact ⟨hf.ring hring, hf.regs hregs, hf.txBuf hbuf⟩
  case edge => exact fun u hu => hu.of_eq (by rw [State.fallingEdge_drv]) u.fallingEdge_chip
  case settles => exact fun u hu => hu.of_eq (by rw [State.settleStore_drv]) u.settleStore_chip
  case restarts => exact fun u ⟨_, hregs, hbuf⟩ => ⟨rfl, hregs, hbuf⟩
  all_goals intros; assumption

/-! ### The interrupt mask -/

/-- The mask discipline depends on the mask and POLL's position alone. -/
theorem MaskOk.of_eq {s t : State} (hs : MaskOk s) (hmask : t.drv.irqMask = s.drv.irqMask) (hpoll : t.poll = s.poll) :
    MaskOk t := by
  rw [MaskOk, hmask, hpoll]
  exact hs

theorem PollPos.holdsMask_of_inInit {p : PollPos} (h : p.inInit = true) : p.holdsMask = false := by
  cases p <;> simp_all [inInit, holdsMask]

theorem MaskOk.plain {s t : State} (hs : MaskOk s) (hf : PlainFrame s t) : MaskOk t := by
  rw [MaskOk, hf.drv, hs]
  rcases hf.poll with hp | ⟨hp, hq⟩ | ⟨hp, hq | ⟨-, ⟨c, hq⟩ | hq⟩⟩
  · rw [hp]
  all_goals simp [hp, hq, PollPos.holdsMask]

theorem MaskOk.microStep {s t : State} (hs : MaskOk s) (h : MicroStep s t) : MaskOk t := by
  unfold MaskOk at hs ⊢
  cases h with
  | rests hp h => exact h ▸ hs
  | initGoes hp hq _ hdrv => rw [hdrv, hs, PollPos.holdsMask_of_inInit hp, PollPos.holdsMask_of_inInit hq]
  | initFails hp hq hdrv _ => rw [hdrv, hs, PollPos.holdsMask_of_inInit hp, hq]; rfl
  | initAllocates _ _ hp hq hdrv => rw [hdrv, hq]; rfl
  | initReturns hp h => rw [h]; exact hs.trans (by rw [hp]; rfl)
  | sendGoes _ _ _ hmask =>
    rcases hmask with ⟨hmask, hq⟩ | ⟨hmask, hq⟩
    · rw [hmask, hq, hs]
    · rw [hmask, hq]
  | sendReturns _ _ hq _ _ hmask =>
    rcases hmask with hmask | ⟨hp, hmask⟩
    · rw [hmask, hq]; rfl
    · rw [hmask, hs, hp, hq]; rfl
  | recvEmpty _ hp h | recvStarts _ hp _ h | recvCopies _ _ hp _ h | recvCopied _ _ hp h | recvAdvances _ hp h
  | recvReturns _ hp h =>
    rw [h]; exact hs.trans (by rw [hp]; rfl)

/-- Settles O56: of POLL's micro-steps S4 sets the mask and enters the sequence and the exits clear it (`MaskOk.microStep`); no other
move changes the mask or takes POLL into the sequence or out of it. -/
theorem stepKeepsMaskDiscipline : Obligations.StepKeepsMaskDiscipline := by
  intro s t
  refine step_preserves (P := MaskOk) ?handler ?fires ?initStarts ?plain ?micro ?turn ?program ?enters ?now ?edge ?settles ?restarts
  case handler =>
    intro u t hu _ h
    have hf := irqBody_frame h
    exact hu.of_eq (by rw [hf.drv]; rfl) hf.poll
  case fires =>
    intro u hu _
    have hf := timerFire_frame u.now.2
    exact hu.of_eq (by rw [hf.drv]; rfl) hf.poll
  case initStarts => exact fun u _ _ _ _ hu hp _ _ => hu.trans (by rw [hp]; rfl)
  case plain => exact fun u t hu hf => hu.plain hf
  case micro => exact fun u t hu _ h => hu.microStep (pollContinue_microStep h)
  case edge => exact fun u hu => hu.of_eq (by rw [State.fallingEdge_drv]) u.fallingEdge_poll
  case settles => exact fun u hu => hu.of_eq (by rw [State.settleStore_drv]) u.settleStore_poll
  case restarts => exact fun _ _ => rfl
  all_goals intros; assumption

end Sys2Proof.Machine
end

section
/-! SUPPORT. The lifecycle invariant (10_state R22, R53; 70_reset R281): what it says before and after INITIALIZE has succeeded, and
that each kind of move keeps it. -/

namespace Sys2Proof.Machine

/-! ### The two halves of the invariant -/

theorem Mode.eq_uninit_iff {m : Mode} : m = .uninit ↔ m ≠ .ready := by
  cases m <;> simp

theorem State.deliverable_ready {s : State} (h : s.deliverable = true) : s.drv.mode = .ready := by
  simp [State.deliverable] at h
  exact h.1.1.1

/-- The invariant of a live driver. -/
theorem LifeOk.of_ready {s : State} (hm : s.drv.mode = .ready) (hparams : s.params.wf = true) (hgiven : s.drv.given.isSome = true)
    (hpoll : s.poll.inInit = false) (henabled : s.drv.irqEnabled = true)
    (hring : s.drv.slots = s.params.n ∧ s.drv.wr < s.params.n ∧ s.drv.rd < s.params.n)
    (hwindow : s.drv.enum = s.drv.timerArmed) : LifeOk s :=
  ⟨hparams, fun _ => hgiven, fun hu => absurd hm (Mode.eq_uninit_iff.1 hu), fun _ => ⟨hpoll, henabled⟩, fun _ => hring, hwindow⟩

/-- The invariant before INITIALIZE has succeeded. -/
theorem LifeOk.of_uninit {s : State} (hm : s.drv.mode = .uninit) (hparams : s.params.wf = true)
    (hgiven : s.poll.inInit = true → s.drv.given.isSome = true) (hpoll : s.poll = .idle ∨ s.poll.inInit = true)
    (hflags : s.drv.irqEnabled = false ∧ s.drv.irqPend = false ∧ s.drv.enum = false ∧ s.drv.absent = false
      ∧ s.drv.timerArmed = false)
    (hring : s.poll = .initRegister → s.drv.slots = s.params.n ∧ s.drv.wr < s.params.n ∧ s.drv.rd < s.params.n) : LifeOk s := by
  have hnot : s.drv.mode ≠ .ready := Mode.eq_uninit_iff.1 hm
  obtain ⟨hen, hpend, henum, habs, htimer⟩ := hflags
  exact ⟨hparams, fun h => hgiven (h.resolve_left hnot), fun _ => ⟨hpoll, hen, hpend, henum, habs, htimer⟩,
    fun h => absurd h hnot, fun h => hring (h.resolve_left hnot), henum.trans htimer.symm⟩

/-- The invariant depends on the parameters, the block's own state and POLL's position alone. -/
theorem LifeOk.of_eq {s t : State} (hs : LifeOk s) (hparams : t.params = s.params) (hdrv : t.drv = s.drv)
    (hpoll : t.poll = s.poll) : LifeOk t := by
  refine ⟨?_, ?_, ?_, ?_, ?_, ?_⟩
  · rw [hparams]; exact hs.params
  · rw [hdrv, hpoll]; exact hs.given
  · rw [hdrv, hpoll]; exact hs.uninit
  · rw [hdrv, hpoll]; exact hs.ready
  · rw [hdrv, hpoll, hparams]; exact hs.ring
  · rw [hdrv]; exact hs.window

section

variable {s t : State} (hs : LifeOk s)
include hs

theorem LifeOk.n_pos : 0 < s.params.n := by
  have hwf := hs.params
  simp [Params.wf] at hwf
  omega

/-- Inside an operation other than INITIALIZE the driver is live. -/
theorem LifeOk.ready_of_poll (hp : s.poll ≠ .idle) (hq : s.poll.inInit = false) : s.drv.mode = .ready := by
  by_contra hm
  rcases (hs.uninit (Mode.eq_uninit_iff.2 hm)).1 with h | h
  · exact hp h
  · rw [hq] at h
    cases h

/-- Inside INITIALIZE there is no live driver. -/
theorem LifeOk.uninit_of_inInit (hp : s.poll.inInit = true) : s.drv.mode = .uninit := by
  rw [Mode.eq_uninit_iff]
  intro hm
  rw [(hs.ready hm).1] at hp
  cases hp

/-- Before INITIALIZE has succeeded, a move that leaves POLL idle or before INITIALIZE's last step keeps the invariant. -/
theorem LifeOk.initMove (hm : s.drv.mode = .uninit) (hparams : t.params = s.params) (hdrv : t.drv = s.drv)
    (hgiven : s.drv.given.isSome = true) (hq : t.poll = .idle ∨ t.poll.inInit = true) (hne : t.poll ≠ .initRegister) :
    LifeOk t :=
  .of_uninit (by rw [hdrv, hm]) (by rw [hparams]; exact hs.params) (fun _ => by rw [hdrv]; exact hgiven) hq
    (by rw [hdrv]; exact (hs.uninit hm).2) (fun h => absurd h hne)

/-- On a live driver, a move that leaves POLL outside INITIALIZE and changes neither the shape of the ring nor the enumeration
window keeps the invariant. -/
theorem LifeOk.readyMove (hm : s.drv.mode = .ready) (hparams : t.params = s.params) (hq : t.poll.inInit = false)
    (hdrv : t.drv = { s.drv with rd := t.drv.rd, absent := t.drv.absent, irqMask := t.drv.irqMask, irqPend := t.drv.irqPend })
    (hrd : t.drv.rd < s.params.n) : LifeOk t := by
  have hring := hs.ring (.inl hm)
  refine .of_ready ?_ ?_ ?_ hq ?_ ⟨?_, ?_, ?_⟩ ?_
  · rw [hdrv]; exact hm
  · rw [hparams]; exact hs.params
  · rw [hdrv]; exact hs.given (.inl hm)
  · rw [hdrv]; exact (hs.ready hm).2
  · rw [hdrv, hparams]; exact hring.1
  · rw [hdrv, hparams]; exact hring.2.1
  · rw [hparams]; exact hrd
  · rw [hdrv]; exact hs.window

/-! ### The moves -/

theorem LifeOk.handler (hd : s.deliverable = true) (h : irqBody s.enterIrq = .next t) : LifeOk t := by
  have hm := State.deliverable_ready hd
  have hf := irqBody_frame h
  obtain ⟨hslots, hwr, hrd⟩ := hs.ring (.inl hm)
  refine .of_ready ?_ ?_ ?_ ?_ ?_ ⟨?_, ?_, ?_⟩ ?_
  · rw [hf.drv]; exact hm
  · rw [hf.params]; exact hs.params
  · rw [hf.drv]; exact hs.given (.inl hm)
  · rw [hf.poll]; exact (hs.ready hm).1
  · rw [hf.drv]; exact (hs.ready hm).2
  · rw [hf.drv, hf.params]; exact hslots
  · rw [hf.params]
    rcases hf.wr with h | h <;> rw [h]
    · exact hwr
    · exact Nat.mod_lt _ hs.n_pos
  · rw [hf.drv, hf.params]; exact hrd
  · rcases hf.window with ⟨he, ht⟩ | ⟨he, ht⟩ <;> rw [he, ht]
    exact hs.window

theorem LifeOk.fires (hm : s.drv.mode = .ready) : LifeOk (timerFire s.now.2) := by
  have hf := timerFire_frame s.now.2
  refine .of_ready ?_ ?_ ?_ ?_ ?_ ?_ ?_
  · rw [hf.drv]; exact hm
  · rw [hf.params]; exact hs.params
  · rw [hf.drv]; exact hs.given (.inl hm)
  · rw [hf.poll]; exact (hs.ready hm).1
  · rw [hf.drv]; exact (hs.ready hm).2
  · rw [hf.drv, hf.params]; exact hs.ring (.inl hm)
  · rw [hf.drv]

theorem LifeOk.initStarts (hm : s.drv.mode = .uninit) (c : Cfg) :
    LifeOk ((s.setDrv { s.drv with given := some c }).start .initReset) :=
  .of_uninit hm hs.params (fun _ => rfl) (.inr rfl) (hs.uninit hm).2 (by simp)

theorem LifeOk.plain (hf : PlainFrame s t) : LifeOk t := by
  rcases hf.poll with hp | ⟨hp, hq⟩ | ⟨hp, hq | ⟨hm, hq⟩⟩
  · exact hs.of_eq hf.params hf.drv hp
  · have hin : s.poll.inInit = true := by rw [hp]; rfl
    exact hs.initMove (hs.uninit_of_inInit hin) hf.params hf.drv (hs.given (.inr hin)) (.inr (by rw [hq]; rfl)) (by simp [hq])
  · exact hs.of_eq hf.params hf.drv (hq.trans hp.symm)
  · have hout : t.poll.inInit = false := by rcases hq with ⟨c, hq⟩ | hq <;> rw [hq] <;> rfl
    exact hs.readyMove hm hf.params hout (by rw [hf.drv]) (by rw [hf.drv]; exact (hs.ring (.inl hm)).2.2)

/-- Step 7 allocates the ring with both indices in range. -/
theorem LifeOk.allocates {stored : Option IdPair} (hp : s.poll = .initState) (hparams : t.params = s.params)
    (hq : t.poll = .initRegister) (hdrv : t.drv = s.drv.initialized s.params stored) : LifeOk t := by
  have hin : s.poll.inInit = true := by rw [hp]; rfl
  have hm := hs.uninit_of_inInit hin
  refine .of_uninit ?_ ?_ (fun _ => ?_) (.inr (by rw [hq]; rfl)) ?_ (fun _ => ?_)
  · rw [hdrv]; exact hm
  · rw [hparams]; exact hs.params
  · rw [hdrv]; exact hs.given (.inr hin)
  · rw [hdrv]; exact ⟨(hs.uninit hm).2.1, rfl, rfl, rfl, rfl⟩
  · rw [hdrv, hparams]; exact ⟨rfl, hs.n_pos, hs.n_pos⟩

/-- Step 8 makes the driver live. -/
theorem LifeOk.registers (hp : s.poll = .initRegister) : LifeOk (initRegisterStep s) :=
  .of_ready rfl hs.params (hs.given (.inr (by rw [hp]; rfl))) rfl rfl (hs.ring (.inr hp)) hs.window

theorem LifeOk.microStep (hparams : t.params = s.params) (h : MicroStep s t) : LifeOk t := by
  cases h with
  | rests _ h => exact h ▸ hs
  | initGoes hp hq hne hdrv =>
    exact hs.initMove (hs.uninit_of_inInit hp) hparams hdrv (hs.given (.inr hp)) (.inr hq) hne
  | initFails hp hq hdrv _ =>
    exact hs.initMove (hs.uninit_of_inInit hp) hparams hdrv (hs.given (.inr hp)) (.inl hq) (by simp [hq])
  | initAllocates _ _ hp hq hdrv => exact hs.allocates hp hparams hq hdrv
  | initReturns hp h => exact h ▸ hs.registers hp
  | sendGoes hp hq hdrv _ =>
    have hm := hs.ready_of_poll (PollPos.ne_idle_of_inSend hp) (PollPos.inInit_of_inSend hp)
    exact hs.readyMove hm hparams (PollPos.inInit_of_inSend hq) (by rw [hdrv]) (by rw [hdrv]; exact (hs.ring (.inl hm)).2.2)
  | sendReturns _ hp hq hdrv _ _ _ _ =>
    have hm := hs.ready_of_poll (PollPos.ne_idle_of_inSend hp) (PollPos.inInit_of_inSend hp)
    exact hs.readyMove hm hparams (by rw [hq]; rfl) (by rw [hdrv]) (by rw [hdrv]; exact (hs.ring (.inl hm)).2.2)
  | recvEmpty _ hp h | recvStarts _ hp _ h | recvCopies _ _ hp _ h | recvCopied _ _ hp h | recvReturns _ hp h =>
    have hm := hs.ready_of_poll (by simp [hp]) (by rw [hp]; rfl)
    exact hs.readyMove hm hparams (by rw [h]; rfl) (by rw [h]; rfl) (by rw [h]; exact (hs.ring (.inl hm)).2.2)
  | recvAdvances _ hp h =>
    have hm := hs.ready_of_poll (by simp [hp]) (by rw [hp]; rfl)
    exact hs.readyMove hm hparams (by rw [h]; rfl) (by rw [h]; rfl) (by rw [h]; exact Nat.mod_lt _ hs.n_pos)

theorem LifeOk.edge : LifeOk s.fallingEdge := by
  by_cases hm : s.drv.mode = .ready
  · exact hs.readyMove hm s.fallingEdge_params (by rw [s.fallingEdge_poll]; exact (hs.ready hm).1) (by rw [s.fallingEdge_drv])
      (by rw [s.fallingEdge_drv]; exact (hs.ring (.inl hm)).2.2)
  · rw [State.fallingEdge_of_disabled (hs.uninit (Mode.eq_uninit_iff.2 hm)).2.1]
    exact hs

theorem LifeOk.restarts : LifeOk s.restart :=
  .of_uninit rfl hs.params (fun h => by cases h) (.inl rfl) ⟨rfl, rfl, rfl, rfl, rfl⟩ (fun h => by cases h)

end

/-- Settles O57: one lemma for each kind of move. -/
theorem stepKeepsLifecycle : Obligations.StepKeepsLifecycle := by
  intro s t
  refine step_preserves (P := LifeOk) ?handler ?fires ?initStarts ?plain ?micro ?turn ?program ?enters ?now ?edge ?settles ?restarts
  case handler => exact fun u t hu hd h => hu.handler hd h
  case fires => exact fun u hu hm => hu.fires hm
  case initStarts => exact fun u b c l hz hu _ hm _ => hu.initStarts hm _
  case plain => exact fun u t hu hf => hu.plain hf
  case micro => exact fun u t hu _ h => hu.microStep (pollContinue_frame h).params (pollContinue_microStep h)
  case turn | now => exact fun u hu => hu.of_eq rfl rfl rfl
  case program | enters => exact fun u _ hu => hu.of_eq rfl rfl rfl
  case edge => exact fun u hu => hu.edge
  case settles => exact fun u hu => hu.of_eq u.settleStore_params u.settleStore_drv u.settleStore_poll
  case restarts => exact fun u hu => hu.restarts

end Sys2Proof.Machine
end

section
/-! SUPPORT. The identifier invariant (10_state R27, R28; 42_initialize R174): where each identifier comes from. -/

namespace Sys2Proof.Machine

section

variable {s t : State} (hs : IdOk s)
include hs

/-- A move that adopts no identifier, collects none and starts no live driver keeps the invariant. -/
theorem IdOk.move (hparams : t.params = s.params) (hstorage : t.env.storage = s.env.storage)
    (hhanded : t.env.handed = s.env.handed) (hseen : t.drv.seen = s.drv.seen) (hself : t.drv.selfId = s.drv.selfId)
    (hlive : t.drv.mode = .ready ∨ t.poll = .initRegister → s.drv.mode = .ready ∨ s.poll = .initRegister) : IdOk t := by
  refine ⟨?_, ?_, ?_, ?_, ?_, fun h => ?_⟩
  · rw [hparams]; exact hs.default
  · rw [hstorage]; exact hs.stored
  · rw [hhanded]; exact hs.handed
  · rw [hseen]; exact hs.seen
  · rw [hseen, hparams]; exact hs.cap
  · rw [hself]; exact hs.own (hlive h)

/-- What the handler collects is a record's id pair, and only while the list has room (R203). -/
theorem IdOk.handler (hm : s.drv.mode = .ready) (h : irqBody s.enterIrq = .next t) : IdOk t := by
  have hf := irqBody_frame h
  refine ⟨?_, ?_, ?_, ?_, ?_, fun _ => ?_⟩
  · rw [hf.params]; exact hs.default
  · rw [hf.storage]; exact hs.stored
  · rw [hf.handed]; exact hs.handed
  · rcases hf.seen with h | ⟨-, r, h⟩ <;> rw [h]
    · exact hs.seen
    · exact List.forall_mem_append.2 ⟨hs.seen, List.forall_mem_singleton.2 (recId_clean _ _)⟩
  · rcases hf.seen with h | ⟨hroom, r, h⟩ <;> rw [h, hf.params]
    · exact hs.cap
    · rw [List.length_append]; exact hroom
  · rw [hf.drv]; exact hs.own (.inl hm)

/-- What the callback adopts and hands over is clean (R224). -/
theorem IdOk.fires (hm : s.drv.mode = .ready) : IdOk (timerFire s.now.2) := by
  have hf := timerFire_frame s.now.2
  have hstorage : (timerFire s.now.2).env.storage = s.env.storage := by
    rw [hf.env]; exact s.env.takeTick_storage
  refine ⟨?_, ?_, ?_, ?_, ?_, fun _ => ?_⟩
  · rw [hf.params]; exact hs.default
  · rw [hstorage]; exact hs.stored
  · rcases hf.adopted with ⟨-, h, -⟩ | ⟨hclean, h, -⟩ <;> rw [h, State.now_env, Env.takeTick_handed]
    · exact hs.handed
    · exact List.forall_mem_append.2 ⟨hs.handed, List.forall_mem_singleton.2 hclean⟩
  · rw [hf.drv]; exact List.forall_mem_nil _
  · rw [hf.drv]; exact Nat.zero_le _
  · rcases hf.adopted with ⟨h, -, -⟩ | ⟨hclean, -, -⟩
    · rw [h]; exact hs.own (.inl hm)
    · exact hclean

theorem IdOk.plain (hf : PlainFrame s t) : IdOk t := by
  refine hs.move hf.params hf.storage hf.handed (by rw [hf.drv]) (by rw [hf.drv]) fun h => ?_
  rw [hf.drv] at h
  rcases hf.poll with hp | ⟨-, hq⟩ | ⟨-, hq | ⟨hm, -⟩⟩
  · rwa [hp] at h
  · exact .inl (h.resolve_right (by simp [hq]))
  · exact .inl (h.resolve_right (by simp [hq]))
  · exact .inl hm

/-- Step 7 loads the stored pair or the default (R174). -/
theorem IdOk.allocates {stored : Option IdPair} (hstored : stored = none ∨ stored = s.env.storage) (hf : PollFrame s t)
    (hdrv : t.drv = s.drv.initialized s.params stored) : IdOk t := by
  refine ⟨?_, ?_, ?_, ?_, ?_, fun _ => ?_⟩
  · rw [hf.params]; exact hs.default
  · rw [hf.storage]; exact hs.stored
  · rw [hf.handed]; exact hs.handed
  · rw [hdrv]; exact List.forall_mem_nil _
  · rw [hdrv]; exact Nat.zero_le _
  · rw [hdrv]
    show (stored.getD s.params.selfIdDefault).clean = true
    cases stored with
    | none => exact hs.default
    | some p => exact hs.stored p (hstored.resolve_left (by simp)).symm

theorem IdOk.microStep (hf : PollFrame s t) (h : MicroStep s t) : IdOk t := by
  have stays (hdrv : t.drv.seen = s.drv.seen ∧ t.drv.selfId = s.drv.selfId ∧ t.drv.mode = s.drv.mode)
      (hq : t.poll ≠ .initRegister) : IdOk t :=
    hs.move hf.params hf.storage hf.handed hdrv.1 hdrv.2.1 fun h => .inl (hdrv.2.2 ▸ h.resolve_right hq)
  cases h with
  | rests _ h => exact h ▸ hs
  | initGoes _ _ hne hdrv => exact stays (by simp [hdrv]) hne
  | initFails _ hq hdrv _ => exact stays (by simp [hdrv]) (by simp [hq])
  | initAllocates _ hstored _ _ hdrv => exact hs.allocates hstored hf hdrv
  | initReturns hp h =>
    subst h
    exact hs.move rfl rfl rfl rfl rfl fun _ => .inr hp
  | sendGoes _ hq hdrv _ => exact stays (by rw [hdrv]; simp) (by rintro h; simp [h, PollPos.inSend] at hq)
  | sendReturns _ _ hq hdrv _ _ _ _ => exact stays (by rw [hdrv]; simp) (by simp [hq])
  | recvEmpty _ _ h | recvStarts _ _ _ h | recvCopies _ _ _ _ h | recvCopied _ _ _ h | recvAdvances _ _ h | recvReturns _ _ h =>
    subst h
    exact stays ⟨rfl, rfl, rfl⟩ (by simp [recvAdvanceStep, recvReturnStep])

/-- What settles was handed over. -/
theorem IdOk.settles : IdOk s.settleStore := by
  rcases s.settleStore_cases with ⟨-, h⟩ | ⟨p, rest, hhanded, hrest, hstorage⟩
  · rw [h]; exact hs
  have hall := hs.handed
  rw [hhanded, List.forall_mem_cons] at hall
  refine ⟨?_, ?_, ?_, ?_, ?_, ?_⟩
  · rw [State.settleStore_params]; exact hs.default
  · intro q hq
    rcases hstorage with h | h <;> rw [h] at hq
    · cases hq; exact hall.1
    · exact hs.stored q hq
  · rw [hrest]; exact hall.2
  · rw [State.settleStore_drv]; exact hs.seen
  · rw [State.settleStore_drv, State.settleStore_params]; exact hs.cap
  · rw [State.settleStore_drv, State.settleStore_poll]; exact hs.own

theorem IdOk.restarts : IdOk s.restart :=
  ⟨hs.default, hs.stored, hs.handed, List.forall_mem_nil _, Nat.zero_le _, fun h => by rcases h with h | h <;> cases h⟩

end

/-- Settles O58: one lemma for each kind of move. -/
theorem stepKeepsIdentifiers : Obligations.StepKeepsIdentifiers := by
  intro s t _
  refine step_preserves (P := IdOk) ?handler ?fires ?initStarts ?plain ?micro ?turn ?program ?enters ?now ?edge ?settles ?restarts
  case handler => exact fun u t hu hd h => hu.handler (State.deliverable_ready hd) h
  case fires => exact fun u hu hm => hu.fires hm
  case initStarts =>
    exact fun u _ _ _ _ hu _ _ _ => hu.move rfl rfl rfl rfl rfl fun h => .inl (h.resolve_right (by simp))
  case plain => exact fun u t hu hf => hu.plain hf
  case micro => exact fun u t hu _ h => hu.microStep (pollContinue_frame h) (pollContinue_microStep h)
  case turn => exact fun u hu => hu.move rfl u.env.takeTurn_storage u.env.takeTurn_handed rfl rfl id
  case now => exact fun u hu => hu.move rfl u.env.takeTick_storage u.env.takeTick_handed rfl rfl id
  case program | enters => exact fun u _ hu => hu.move rfl rfl rfl rfl rfl id
  case edge =>
    refine fun u hu => hu.move u.fallingEdge_params (by simp) (by simp) ?_ ?_ ?_ <;> rw [u.fallingEdge_drv]
    rw [u.fallingEdge_poll]
    exact id
  case settles => exact fun u hu => hu.settles
  case restarts => exact fun u hu => hu.restarts

end Sys2Proof.Machine
end

section
/-! SUPPORT. The ring's written slots (10_state R23): what each kind of move does to the window that RECEIVE reads. -/

namespace Sys2Proof.Machine

/-! ### The window -/

theorem SlotWritten.of_eq {s t : State} {k : Nat} (h : SlotWritten s k) (hring : t.drv.ring = s.drv.ring) : SlotWritten t k := by
  rw [SlotWritten, hring]
  exact h

theorem SlotsBelow.of_eq {s t : State} {rd top : Nat} (h : SlotsBelow s rd top) (hparams : t.params = s.params)
    (hring : t.drv.ring = s.drv.ring) (hwr : t.drv.wr = s.drv.wr) : SlotsBelow t rd top := by
  rw [SlotsBelow, hparams, hwr]
  exact h.imp (fun hall k hk => (hall k hk).of_eq hring)
    fun ⟨hrd, htop, hbelow⟩ => ⟨hrd, htop, fun k hk => (hbelow k hk).of_eq hring⟩

/-- A window whose lower end is not its upper end has room for one more read. -/
theorem SlotsBelow.succ {s : State} {rd top : Nat} (h : SlotsBelow s rd top) (hne : top ≠ rd) :
    SlotsBelow s (rd + 1) s.drv.wr :=
  h.imp id fun ⟨hrd, htop, hbelow⟩ => ⟨by omega, le_rfl, hbelow⟩

/-- A slot of the window below its upper end has been written. -/
theorem SlotsBelow.slotWritten {s : State} {rd top : Nat} (h : SlotsBelow s (rd + 1) top) (hn : rd < s.params.n) :
    SlotWritten s rd := by
  rcases h with hall | ⟨hrd, htop, hbelow⟩
  · exact hall rd hn
  · exact hbelow rd (by omega)

/-- An enqueue writes its own slot and leaves what was written written. -/
theorem State.enqueue_slotWritten {s : State} {r : List Byte} (hr : r.length = Config.recBytes) {k : Nat}
    (hk : k = s.drv.wr ∨ SlotWritten s k) : SlotWritten (s.enqueue r) k := by
  intro i hi
  by_cases hkw : k = s.drv.wr
  · subst hkw
    rw [s.enqueue_holds r hr i hi]
    rfl
  · rw [s.enqueue_outside r hr _ (slotAddr_disjoint hi hkw)]
    exact hk.resolve_left hkw i hi

/-- An enqueue keeps a window whose upper end it does not move. -/
theorem SlotsBelow.enqueue {s : State} {rd top : Nat} (h : SlotsBelow s rd top) (hwr : s.drv.wr < s.params.n)
    {r : List Byte} (hr : r.length = Config.recBytes) : SlotsBelow (s.enqueue r) rd top := by
  rcases h with hall | ⟨hrd, htop, hbelow⟩
  · exact .inl fun k hk => State.enqueue_slotWritten hr (.inr (hall k hk))
  by_cases hlast : s.drv.wr + 1 = s.params.n
  · refine .inl fun k hk => State.enqueue_slotWritten hr ?_
    rcases Nat.lt_or_ge k s.drv.wr with hk' | hk'
    · exact .inr (hbelow k hk')
    · exact .inl (by rw [State.enqueue_params] at hk; omega)
  · have hnext : (s.enqueue r).drv.wr = s.drv.wr + 1 := Nat.mod_eq_of_lt (by omega)
    refine .inr ⟨hrd, by omega, fun k hk => State.enqueue_slotWritten hr ?_⟩
    rcases Nat.lt_or_ge k s.drv.wr with hk' | hk'
    · exact .inr (hbelow k hk')
    · exact .inl (by omega)

/-- The window up to the write index follows it. -/
theorem SlotsBelow.enqueue_top {s : State} {rd : Nat} (h : SlotsBelow s rd s.drv.wr) (hwr : s.drv.wr < s.params.n)
    {r : List Byte} (hr : r.length = Config.recBytes) : SlotsBelow (s.enqueue r) rd (s.enqueue r).drv.wr := by
  rcases h.enqueue hwr hr with hall | ⟨hrd, htop, hbelow⟩
  · exact .inl hall
  · exact .inr ⟨hrd.trans htop, le_rfl, hbelow⟩

/-! ### What a handler run does to the ring -/

/-- A handler run leaves the ring and the write index alone, or enqueues its record. -/
theorem irqBody_ring {s t : State} (h : irqBody s = .next t) :
    (t.drv.ring = s.drv.ring ∧ t.drv.wr = s.drv.wr)
      ∨ ∃ r, r.length = Config.recBytes ∧ t.drv.ring = (s.enqueue r).drv.ring ∧ t.drv.wr = (s.enqueue r).drv.wr := by
  rcases irqBody_cases h with ⟨-, rfl⟩ | ⟨-, -, rfl⟩ | ⟨-, -, -, ⟨-, rfl⟩ | ⟨-, rfl⟩⟩
  · exact .inl (by simp)
  · unfold State.pushSeen
    split <;> exact .inl (by simp)
  · exact .inr ⟨_, s.rxRead_length, by simp, by simp⟩
  · exact .inr ⟨_, s.rxRead_length, by simp, by simp⟩

/-! ### The moves -/

section

variable {s t : State} (hs : SlotsOk s)
include hs

/-- A move that leaves the ring, the indices and POLL's position alone, or takes POLL to a position outside RECEIVE and
INITIALIZE's last step, and starts no live driver. -/
theorem SlotsOk.move (hparams : t.params = s.params)
    (hdrv : t.drv.ring = s.drv.ring ∧ t.drv.wr = s.drv.wr ∧ t.drv.rd = s.drv.rd) (hmode : t.drv.mode = .ready → s.drv.mode = .ready)
    (hpoll : t.poll = s.poll ∨ t.poll ≠ .initRegister ∧ t.poll.inReceive = false) : SlotsOk t := by
  obtain ⟨hring, hwr, hrd⟩ := hdrv
  have same {rd top : Nat} (h : SlotsBelow s rd top) : SlotsBelow t rd top := h.of_eq hparams hring hwr
  have hpos {p : PollPos} (hp : p = .initRegister ∨ p.inReceive = true) (h : t.poll = p) : s.poll = p := by
    subst h
    rcases hpoll with hq | ⟨hne, hout⟩
    · exact hq.symm
    · rcases hp with hp | hp
      · exact absurd hp hne
      · rw [hout] at hp; cases hp
  refine ⟨fun hp => ?_, fun hm => ?_, fun w0 hp => ?_, fun b hp => ?_, fun b hp => ?_⟩ <;> rw [hrd] <;> try rw [hwr]
  · exact hs.registering (hpos (.inl rfl) hp)
  · exact same (hs.below (hmode hm))
  · exact same (hs.compare w0 (hpos (.inr rfl) hp))
  · exact (hs.copy b (hpos (.inr rfl) hp)).imp_left same
  · exact same (hs.advance b (hpos (.inr rfl) hp))

theorem SlotsOk.handler (hl : LifeOk s) (hd : s.deliverable = true) (h : irqBody s.enterIrq = .next t) : SlotsOk t := by
  have hm := State.deliverable_ready hd
  have hf := irqBody_frame h
  have hrd : t.drv.rd = s.drv.rd := by rw [hf.drv]; rfl
  rcases irqBody_ring h with ⟨hring, hwr⟩ | ⟨r, hr, hring, hwr⟩
  · exact hs.move hf.params ⟨hring, hwr, hrd⟩ (fun _ => hm) (.inl hf.poll)
  have hin : s.drv.wr < s.params.n := (hl.ring (.inl hm)).2.1
  have keeps {rd top : Nat} (h : SlotsBelow (s.enqueue r) rd top) : SlotsBelow t rd top := h.of_eq hf.params hring hwr
  have hpoll : t.poll = s.poll := hf.poll
  refine ⟨fun hp => ?_, fun _ => ?_, fun w0 hp => ?_, fun b hp => ?_, fun b hp => ?_⟩ <;> rw [hrd] <;> try rw [hwr]
  · rw [hpoll] at hp
    have hout := (hl.ready hm).1
    rw [hp] at hout
    cases hout
  · exact keeps ((hs.below hm).enqueue_top hin hr)
  · exact keeps ((hs.compare w0 (hpoll ▸ hp)).enqueue hin hr)
  · exact (hs.copy b (hpoll ▸ hp)).imp_left fun h => keeps (h.enqueue_top hin hr)
  · exact keeps ((hs.advance b (hpoll ▸ hp)).enqueue_top hin hr)

theorem SlotsOk.plain (hf : PlainFrame s t) : SlotsOk t := by
  have stays (hq : t.poll = s.poll ∨ t.poll ≠ .initRegister ∧ t.poll.inReceive = false) : SlotsOk t :=
    hs.move hf.params (by simp [hf.drv]) (by simp [hf.drv]) hq
  rcases hf.poll with hp | ⟨-, hq⟩ | ⟨-, hq | ⟨hm, ⟨c, hq⟩ | hq⟩⟩
  · exact stays (.inl hp)
  · exact stays (.inr ⟨by simp [hq], by rw [hq]; rfl⟩)
  · exact stays (.inr ⟨by simp [hq], by rw [hq]; rfl⟩)
  · exact stays (.inr ⟨by simp [hq], by rw [hq]; rfl⟩)
  · have hbelow : SlotsBelow t s.drv.rd s.drv.wr := (hs.below hm).of_eq hf.params (by rw [hf.drv]) (by rw [hf.drv])
    refine ⟨by simp [hq], fun _ => ?_, fun w0 hw => ?_, by simp [hq], by simp [hq]⟩ <;> rw [hf.drv]
    · exact hbelow
    · rw [hq] at hw
      cases hw
      exact hbelow

/-- V4 takes the read index past the slot that was copied. -/
theorem SlotsOk.advances (hl : LifeOk s) (b : List Byte) (hp : s.poll = .recvAdvance b) : SlotsOk (recvAdvanceStep b s) := by
  have hm := hl.ready_of_poll (by simp [hp]) (by rw [hp]; rfl)
  refine ⟨by simp [recvAdvanceStep], fun _ => ?_, by simp [recvAdvanceStep], by simp [recvAdvanceStep], by simp [recvAdvanceStep]⟩
  have hnext : SlotsBelow s ((s.drv.rd + 1) % s.params.n) s.drv.wr := by
    refine (hs.advance b hp).imp id fun ⟨hrd, htop, hbelow⟩ => ⟨?_, htop, hbelow⟩
    rw [Nat.mod_eq_of_lt (hrd.trans_lt (hl.ring (.inl hm)).2.1)]
    exact hrd
  exact hnext.of_eq rfl rfl rfl

theorem SlotsOk.microStep (hl : LifeOk s) (hparams : t.params = s.params) (h : MicroStep s t) : SlotsOk t := by
  cases h with
  | rests _ h => exact h ▸ hs
  | initGoes _ hq hne hdrv =>
    refine hs.move hparams (by simp [hdrv]) (by simp [hdrv]) (.inr ⟨hne, ?_⟩)
    cases hp : t.poll <;> simp [hp, PollPos.inInit, PollPos.inReceive] at hq ⊢
  | initFails _ hq hdrv _ => exact hs.move hparams (by simp [hdrv]) (by simp [hdrv]) (.inr ⟨by simp [hq], by rw [hq]; rfl⟩)
  | initAllocates _ _ hp hq hdrv =>
    have hm := hl.uninit_of_inInit (by rw [hp]; rfl)
    have hm' : t.drv.mode ≠ .ready := by rw [hdrv]; exact Mode.eq_uninit_iff.1 hm
    exact ⟨fun _ => by rw [hdrv]; exact ⟨rfl, rfl⟩, fun h => absurd h hm', by simp [hq], by simp [hq], by simp [hq]⟩
  | initReturns hp h =>
    subst h
    refine ⟨by simp [initRegisterStep], fun _ => ?_, by simp [initRegisterStep], by simp [initRegisterStep],
      by simp [initRegisterStep]⟩
    obtain ⟨hrd, hwr⟩ := hs.registering hp
    refine .inr ⟨hrd.le.trans (Nat.zero_le _), le_rfl, fun k hk => ?_⟩
    exact absurd (hk.trans_eq hwr) (Nat.not_lt_zero k)
  | sendGoes _ hq hdrv _ =>
    refine hs.move hparams (by rw [hdrv]; simp) (by rw [hdrv]; exact id) (.inr ?_)
    cases hp : t.poll <;> simp [hp, PollPos.inSend, PollPos.inReceive] at hq ⊢
  | sendReturns _ _ hq hdrv _ _ _ _ =>
    exact hs.move hparams (by rw [hdrv]; simp) (by rw [hdrv]; exact id) (.inr ⟨by simp [hq], by rw [hq]; rfl⟩)
  | recvEmpty _ _ h | recvReturns _ _ h => exact hs.move hparams (by rw [h]; exact ⟨rfl, rfl, rfl⟩) (by rw [h]; exact id) (.inr ⟨by simp [h, recvReturnStep], by rw [h]; rfl⟩)
  | recvStarts w0 hp hne h =>
    subst h
    have hcopy : SlotsBelow s (s.drv.rd + 1) s.drv.wr := (hs.compare w0 hp).succ hne
    refine ⟨by simp, fun hm => (hs.below hm).of_eq rfl rfl rfl, by simp, fun b hb => ⟨hcopy.of_eq rfl rfl rfl, ?_⟩, by simp⟩
    cases hb
    decide
  | recvCopies b b' hp hlen h =>
    subst h
    have hcopy : SlotsBelow s (s.drv.rd + 1) s.drv.wr := (hs.copy b hp).1
    refine ⟨by simp, fun hm => (hs.below hm).of_eq rfl rfl rfl, by simp, fun _ hb => ⟨hcopy.of_eq rfl rfl rfl, ?_⟩, by simp⟩
    cases hb
    exact hlen
  | recvCopied b b' hp h =>
    subst h
    have hcopy : SlotsBelow s (s.drv.rd + 1) s.drv.wr := (hs.copy b hp).1
    exact ⟨by simp, fun hm => (hs.below hm).of_eq rfl rfl rfl, by simp, by simp, fun _ _ => hcopy.of_eq rfl rfl rfl⟩
  | recvAdvances b hp h => exact h ▸ hs.advances hl b hp

end

/-! ### The slot that RECEIVE copies -/

/-- The byte V3 copies next has been written. -/
theorem SlotsOk.read_slot {s : State} (hs : SlotsOk s) (hl : LifeOk s) {b : List Byte} (hp : s.poll = .recvCopy b) :
    ∃ v, Memory.read s.drv.ring (slotAddr s.drv.rd b.length) = some v := by
  have hm := hl.ready_of_poll (by simp [hp]) (by rw [hp]; rfl)
  obtain ⟨hwindow, hlen⟩ := hs.copy b hp
  exact Option.isSome_iff_exists.1 (hwindow.slotWritten (hl.ring (.inl hm)).2.2 b.length hlen)

/-- V3 goes on with the byte it read. -/
theorem pollContinue_recvCopy {s : State} {b : List Byte} (hp : s.poll = .recvCopy b) (hrd : s.drv.rd < s.drv.slots) {v : Byte}
    (hv : (Memory.read s.drv.ring (slotAddr s.drv.rd b.length)).getD (Config.unwrittenByte (slotAddr s.drv.rd b.length)) = v) :
    pollContinue s = .next (s.goto (if (b ++ [v]).length < Config.recBytes then .recvCopy (b ++ [v]) else .recvAdvance (b ++ [v]))) := by
  unfold pollContinue
  rw [hp]
  dsimp only
  rw [recvCopyStep, if_pos hrd]
  dsimp only
  rw [hv]

/-- Settles O59: each kind of move keeps the window RECEIVE reads inside the written slots, beside the lifecycle invariant. -/
theorem receiveReadsOnlyWrittenSlots : Obligations.ReceiveReadsOnlyWrittenSlots := by
  constructor
  · intro s t hl hs h
    refine (step_preserves (P := fun s => LifeOk s ∧ SlotsOk s) ?handler ?fires ?initStarts ?plain ?micro ?turn ?program ?enters ?now
      ?edge ?settles ?restarts ⟨hl, hs⟩ h).2
    case handler => exact fun u t ⟨hl, hs⟩ hd h => ⟨hl.handler hd h, hs.handler hl hd h⟩
    case fires =>
      intro u ⟨hl, hs⟩ hm
      have hf := timerFire_frame u.now.2
      exact ⟨hl.fires hm, hs.move hf.params (by rw [hf.drv]; exact ⟨rfl, rfl, rfl⟩) (fun _ => hm) (.inl hf.poll)⟩
    case initStarts =>
      exact fun u _ _ _ _ ⟨hl, hs⟩ _ hm _ => ⟨hl.initStarts hm _, hs.move rfl ⟨rfl, rfl, rfl⟩ id (.inr ⟨by simp, rfl⟩)⟩
    case plain => exact fun u t ⟨hl, hs⟩ hf => ⟨hl.plain hf, hs.plain hf⟩
    case micro =>
      intro u t ⟨hl, hs⟩ _ h
      have hmicro := pollContinue_microStep h
      have hparams := (pollContinue_frame h).params
      exact ⟨hl.microStep hparams hmicro, hs.microStep hl hparams hmicro⟩
    case turn | now => exact fun u ⟨hl, hs⟩ => ⟨hl.of_eq rfl rfl rfl, hs.move rfl ⟨rfl, rfl, rfl⟩ id (.inl rfl)⟩
    case program | enters => exact fun u _ ⟨hl, hs⟩ => ⟨hl.of_eq rfl rfl rfl, hs.move rfl ⟨rfl, rfl, rfl⟩ id (.inl rfl)⟩
    case edge =>
      exact fun u ⟨hl, hs⟩ => ⟨hl.edge, hs.move u.fallingEdge_params (by rw [u.fallingEdge_drv]; exact ⟨rfl, rfl, rfl⟩)
        (by rw [u.fallingEdge_drv]; exact id) (.inl u.fallingEdge_poll)⟩
    case settles =>
      exact fun u ⟨hl, hs⟩ => ⟨hl.of_eq u.settleStore_params u.settleStore_drv u.settleStore_poll,
        hs.move u.settleStore_params (by simp) (by simp) (.inl u.settleStore_poll)⟩
    case restarts =>
      exact fun u ⟨hl, hs⟩ => ⟨hl.restarts, by constructor <;> intros <;> simp_all [State.restart, Driver.powerOn]⟩
  · intro s b hl hs hp
    obtain ⟨v, hv⟩ := hs.read_slot hl hp
    have hm := hl.ready_of_poll (by simp [hp]) (by rw [hp]; rfl)
    have hring := hl.ring (.inl hm)
    refine ⟨v, hv, _, pollContinue_recvCopy hp (by omega) (by rw [hv]), ?_⟩
    rw [State.goto_poll]
    split
    · exact .inl rfl
    · exact .inr rfl

end Sys2Proof.Machine
end

section
/-! SUPPORT. The shape check read character by character (30_encoding R101, R103): the form of an accepted string, and the slices
that hold its digits. -/

namespace Sys2Proof.Machine

/-! ### Slices of a string -/

/-- A slice inside a string lists its characters. -/
theorem slice_eq_map {w : WireString} {a n : Nat} (h : a + n ≤ w.length) :
    (w.drop a).take n = (List.range n).map fun i => w.getD (a + i) 0 := by
  apply List.ext_getElem
  · simp
    omega
  · intro i hi _
    have hin : a + i < w.length := by simp at hi; omega
    simp [List.getD_eq_getElem?_getD, hin]

theorem all_isHex_slice_iff {w : WireString} {a n : Nat} (h : a + n ≤ w.length) :
    ((w.drop a).take n).all isHex = true ↔ ∀ i, a ≤ i → i < a + n → isHex (w.getD i 0) = true := by
  rw [slice_eq_map h, List.all_map, List.all_eq_true]
  constructor
  · intro hall i hlo hhi
    have hi := hall (i - a) (List.mem_range.2 (by omega))
    rwa [Function.comp, Nat.add_sub_cancel' hlo] at hi
  · intro hall i hi
    have := List.mem_range.1 hi
    exact hall (a + i) (by omega) (by omega)

theorem all_isHex_slice_eq_false {w : WireString} {a n : Nat} (h : a + n ≤ w.length)
    (hbad : ∃ i, a ≤ i ∧ i < a + n ∧ isHex (w.getD i 0) = false) : ((w.drop a).take n).all isHex = false := by
  obtain ⟨i, hlo, hhi, hi⟩ := hbad
  rw [← Bool.not_eq_true, all_isHex_slice_iff h]
  intro hall
  rw [hall i hlo hhi] at hi
  cases hi

/-! ### The form of an accepted string -/

/-- Checks 1 to 3 passed: what is left of the shape check. -/
theorem checkShape_of_width {w : WireString} {k : Nat} (h8 : 8 ≤ w.length) (hcolon : w.getD 0 0 = chColon)
    (hsemi : w.getD (w.length - 1) 0 = chSemi) (hwidth : idWidth (w.getD 1 0) = some k) :
    checkShape w =
      if w.length < k + 4 then .error .frameTooShort
      else if ((w.drop 2).take k).all isHex = false then .error .nonHexDigits
      else if w.getD (2 + k) 0 ≠ chN ∧ w.getD (2 + k) 0 ≠ chR then .error .unrecognizedFrameKind
      else if ((w.drop (3 + k)).take (w.length - 4 - k)).all isHex = false then .error .nonHexDigits
      else if (w.length - 4 - k) % 2 = 1 ∨ 16 < w.length - 4 - k then .error .malformedFrame
      else .ok ⟨k = 8, BitVec.ofNat 32 (hexNumber ((w.drop 2).take k)), w.getD (2 + k) 0 = chR,
        unhex ((w.drop (3 + k)).take (w.length - 4 - k))⟩ := by
  have hn : w.length - 1 - (3 + k) = w.length - 4 - k := by omega
  have hlen : ((w.drop (3 + k)).take (w.length - 4 - k)).length = w.length - 4 - k := by simp; omega
  rw [checkShape, if_neg (by omega), if_neg (not_or.2 ⟨not_not.2 hcolon, not_not.2 hsemi⟩), hwidth]
  simp only [hn, hlen]

/-- The form of an accepted string, by its character positions; `k` is the number of identifier characters. -/
structure Shaped (w : WireString) (k : Nat) : Prop where
  long : 8 ≤ w.length ∧ k + 4 ≤ w.length
  colon : w.getD 0 0 = chColon
  semi : w.getD (w.length - 1) 0 = chSemi
  width : idWidth (w.getD 1 0) = some k
  ids : ∀ i, 2 ≤ i → i < 2 + k → isHex (w.getD i 0) = true
  kind : w.getD (2 + k) 0 = chN ∨ w.getD (2 + k) 0 = chR
  data : ∀ i, 3 + k ≤ i → i < w.length - 1 → isHex (w.getD i 0) = true
  even : (w.length - 4 - k) % 2 = 0
  short : w.length - 4 - k ≤ 16

/-- The fields of an accepted string. -/
def shapedFields (w : WireString) (k : Nat) : Parsed :=
  ⟨k = 8, BitVec.ofNat 32 (hexNumber ((w.drop 2).take k)), w.getD (2 + k) 0 = chR,
    unhex ((w.drop (3 + k)).take (w.length - 4 - k))⟩

theorem Shaped.checkShape_eq {w : WireString} {k : Nat} (h : Shaped w k) : checkShape w = .ok (shapedFields w k) := by
  obtain ⟨h8, hlong⟩ := h.long
  have heven := h.even
  have hshort := h.short
  have hids := (all_isHex_slice_iff (by omega)).2 h.ids
  have hdata : ((w.drop (3 + k)).take (w.length - 4 - k)).all isHex = true :=
    (all_isHex_slice_iff (by omega)).2 fun i hlo hhi => h.data i hlo (by omega)
  have hkind : ¬ (w.getD (2 + k) 0 ≠ chN ∧ w.getD (2 + k) 0 ≠ chR) := fun ⟨hN, hR⟩ => h.kind.elim hN hR
  rw [checkShape_of_width h8 h.colon h.semi h.width, if_neg (by omega), if_neg (by simp [hids]), if_neg hkind,
    if_neg (by simp [hdata]), if_neg (by omega), shapedFields]

/-- An accepted string has the form, and the fields that go with it. -/
theorem exists_shaped {w : WireString} {c : Parsed} (h : checkShape w = .ok c) : ∃ k, Shaped w k ∧ shapedFields w k = c := by
  have h8 : 8 ≤ w.length := by
    by_contra hlt
    rw [checkShape, if_pos (by omega)] at h
    cases h
  have hframe : w.getD 0 0 = chColon ∧ w.getD (w.length - 1) 0 = chSemi := by
    by_contra hne
    rw [checkShape, if_neg (by omega), if_pos (by tauto)] at h
    cases h
  obtain ⟨k, hk⟩ : ∃ k, idWidth (w.getD 1 0) = some k := by
    rw [checkShape, if_neg (by omega), if_neg (not_or.2 ⟨not_not.2 hframe.1, not_not.2 hframe.2⟩)] at h
    split at h
    · cases h
    · exact ⟨_, ‹_›⟩
  rw [checkShape_of_width h8 hframe.1 hframe.2 hk] at h
  split at h
  · cases h
  split at h
  · cases h
  split at h
  · cases h
  split at h
  · cases h
  split at h
  · cases h
  rename_i hlong hids hkind hdata hcount
  rw [Bool.not_eq_false, all_isHex_slice_iff (by omega)] at hids hdata
  exact ⟨k, ⟨⟨h8, by omega⟩, hframe.1, hframe.2, hk, hids, by tauto, fun i hlo hhi => hdata i hlo (by omega), by omega, by omega⟩,
    Except.ok.inj h⟩

/-- Settles O4: the first three clauses fail one of checks 1 to 3, the others one of checks 4 to 8 (`checkShape_of_width`), and a
string that fails none has the accepted form. -/
theorem shapeCheckReportsFirstFailure : Obligations.ShapeCheckReportsFirstFailure := by
  intro w c framed
  refine ⟨fun hshort => if_pos hshort, fun h8 hc => ?_, fun ⟨h8, hcolon, hsemi⟩ hS hX => ?_, ?_⟩
  · have hunframed : w.getD 0 0 ≠ chColon ∨ w.getD (w.length - 1) 0 ≠ chSemi := hc
    rw [checkShape, if_neg (by omega), if_pos hunframed]
  · have hframed : ¬ (w.getD 0 0 ≠ chColon ∨ w.getD (w.length - 1) 0 ≠ chSemi) :=
      not_or.2 ⟨not_not.2 hcolon, not_not.2 hsemi⟩
    have hnone : idWidth (w.getD 1 0) = none := (if_neg hS).trans (if_neg hX)
    rw [checkShape, if_neg (by omega), if_neg hframed, hnone]
  · intro k ⟨h8, hcolon, hsemi⟩ hmarker
    have hwidth : idWidth (w.getD 1 0) = some k := idWidth_eq_some_iff.2 hmarker
    rw [checkShape_of_width h8 hcolon hsemi hwidth]
    refine ⟨fun hlt => if_pos hlt, fun hlong hbad => ?_, fun hlong hids => ⟨fun hN hR => ?_, fun hkind => ⟨fun hbad => ?_,
      fun hdata => ⟨fun hcount => ?_, fun heven hshort => ?_⟩⟩⟩⟩
    · rw [if_neg (by omega), if_pos (all_isHex_slice_eq_false (by omega) hbad)]
    all_goals
      have hidsHex : ¬ ((w.drop 2).take k).all isHex = false := by
        rw [Bool.not_eq_false, all_isHex_slice_iff (by omega)]
        exact hids
      rw [if_neg (by omega), if_neg hidsHex]
    · exact if_pos ⟨hN, hR⟩
    all_goals rw [if_neg (by tauto)]
    · obtain ⟨i, hlo, hhi, hi⟩ := hbad
      exact if_pos (all_isHex_slice_eq_false (by omega) ⟨i, hlo, by omega, hi⟩)
    all_goals
      have hdataHex : ¬ ((w.drop (3 + k)).take (w.length - 4 - k)).all isHex = false := by
        rw [Bool.not_eq_false, all_isHex_slice_iff (by omega)]
        exact fun i hlo hhi => hdata i hlo (by omega)
      rw [if_neg hdataHex]
    · exact if_pos hcount
    · exact if_neg (by omega)

/-! ### The case of the digits (R101) -/

/-- The same character, or a digit of the same value. -/
abbrev SameDigit (x y : Byte) : Prop := x = y ∨ (isHex x = true ∧ isHex y = true ∧ hexVal x = hexVal y)

theorem SameDigit.eq {x y : Byte} (h : SameDigit x y) (hy : isHex y = false) : x = y := by
  rcases h with h | ⟨-, h, -⟩
  · exact h
  · rw [hy] at h
    cases h

theorem SameDigit.isHex {x y : Byte} (h : SameDigit x y) (hy : isHex y = true) : isHex x = true := by
  rcases h with h | ⟨h, -, -⟩
  · rw [h, hy]
  · exact h

theorem SameDigit.hexVal {x y : Byte} (h : SameDigit x y) : hexVal x = hexVal y := by
  rcases h with h | ⟨-, -, h⟩
  · rw [h]
  · exact h

/-- The number of a run of digits depends on their values alone. -/
theorem hexNumber_eq_of_hexVal {ds ds' : WireString} (h : ds.map hexVal = ds'.map hexVal) : hexNumber ds = hexNumber ds' := by
  have hmap (l : WireString) : hexNumber l = (l.map hexVal).foldl (fun acc v => acc * 16 + v) 0 := by
    rw [hexNumber, List.foldl_map]
  rw [hmap, hmap, h]

/-- The bytes of digits depend on their values alone. -/
theorem unhex_eq_of_hexVal {ds ds' : WireString} (h : ds.map hexVal = ds'.map hexVal) : unhex ds = unhex ds' := by
  induction ds using unhex.induct generalizing ds' with
  | case1 x y rest ih =>
    obtain ⟨x', ds₁, rfl, hx, h₁⟩ := List.map_eq_cons_iff.1 h.symm
    obtain ⟨y', rest', rfl, hy, hrest⟩ := List.map_eq_cons_iff.1 h₁
    rw [unhex, unhex, hx, hy, ih hrest.symm]
  | case2 ds hshort =>
    have hlen : ds'.length = ds.length := by simpa using (congrArg List.length h).symm
    match ds with
    | [] => rw [List.length_eq_zero_iff.1 hlen]
    | [_] =>
      obtain ⟨_, rfl⟩ := List.length_eq_one_iff.1 hlen
      rfl
    | x :: y :: rest => exact absurd rfl (hshort x y rest)

section

variable {w w' : WireString} (hlen : w'.length = w.length)
  (hsame : ∀ i, i < w.length → SameDigit (w'.getD i 0) (w.getD i 0))
include hlen hsame

theorem map_hexVal_slice {a n : Nat} (h : a + n ≤ w.length) :
    ((w'.drop a).take n).map hexVal = ((w.drop a).take n).map hexVal := by
  rw [slice_eq_map h, slice_eq_map (hlen ▸ h), List.map_map, List.map_map]
  exact List.map_congr_left fun i hi => (hsame _ (by have := List.mem_range.1 hi; omega)).hexVal

/-- A string of the same digit values has the same form. -/
theorem Shaped.of_sameDigits {k : Nat} (h : Shaped w k) : Shaped w' k := by
  obtain ⟨h8, hlong⟩ := h.long
  have keeps {i : Nat} {x : Byte} (hi : i < w.length) (hx : w.getD i 0 = x) (hhex : Sys2Proof.isHex x = false) : w'.getD i 0 = x := by
    subst hx
    exact (hsame i hi).eq hhex
  refine ⟨by omega, keeps (by omega) h.colon rfl, ?_, ?_, fun i hlo hhi => ?_, ?_, fun i hlo hhi => ?_, ?_, ?_⟩
  · rw [hlen]
    exact keeps (by omega) h.semi rfl
  · have hm : Sys2Proof.isHex (w.getD 1 0) = false := by
      rcases idWidth_eq_some_iff.1 h.width with ⟨hm, -⟩ | ⟨hm, -⟩ <;> rw [hm] <;> rfl
    rw [keeps (by omega) rfl hm]
    exact h.width
  · exact (hsame i (by omega)).isHex (h.ids i hlo hhi)
  · exact h.kind.imp (fun hk => keeps (by omega) hk rfl) (fun hk => keeps (by omega) hk rfl)
  · exact (hsame i (by omega)).isHex (h.data i hlo (by omega))
  · rw [hlen]; exact h.even
  · rw [hlen]; exact h.short

/-- A string of the same digit values has the same fields. -/
theorem Shaped.fields_of_sameDigits {k : Nat} (h : Shaped w k) : shapedFields w' k = shapedFields w k := by
  obtain ⟨h8, hlong⟩ := h.long
  have hkind : w'.getD (2 + k) 0 = w.getD (2 + k) 0 := by
    refine (hsame _ (by omega)).eq ?_
    rcases h.kind with hk | hk <;> rw [hk] <;> rfl
  rw [shapedFields, shapedFields, hlen, hkind, hexNumber_eq_of_hexVal (map_hexVal_slice hlen hsame (by omega)),
    unhex_eq_of_hexVal (map_hexVal_slice hlen hsame (by omega))]

end

/-- Settles O9: no marker or punctuation is a digit, so a string of the same digit values keeps the form and the fields. -/
theorem hexDigitCaseIgnoredOnInput : Obligations.HexDigitCaseIgnoredOnInput := by
  intro w w' c hc hlen hsame
  obtain ⟨k, hw, rfl⟩ := exists_shaped hc
  rw [(hw.of_sameDigits hlen hsame).checkShape_eq, hw.fields_of_sameDigits hlen hsame]

end Sys2Proof.Machine
end

section
/-! SUPPORT. Identifier fields in the codec's texts and records (30_encoding R91, R98, R99). -/

namespace Sys2Proof.Machine

/-! ### Reserved bits of a standard field -/

theorem encodeField_reservedBits (id : BitVec 32) : (id <<< Config.idShift).setWidth 16 &&& 0x1F = 0 := by
  apply BitVec.eq_of_toNat_eq
  rw [BitVec.toNat_and]
  refine (Nat.and_two_pow_sub_one_eq_mod _ 5).trans ?_
  simp only [Config.idShift, BitVec.toNat_setWidth, BitVec.toNat_shiftLeft, Nat.shiftLeft_eq]
  show _ = 0
  omega

theorem setWidth_ushiftRight_field (f : BitVec 16) : f.setWidth 32 >>> Config.idShift = (f >>> 5).setWidth 32 := by
  apply BitVec.eq_of_toNat_eq
  have hf := f.isLt
  simp only [Config.idShift, BitVec.toNat_setWidth, BitVec.toNat_ushiftRight, Nat.shiftRight_eq_div_pow]
  omega

theorem byteAt_take {l : List Byte} {i n : Nat} (h : i < n) : byteAt (l.take n) i = byteAt l i := by
  simp [byteAt, List.getD_eq_getElem?_getD, List.getElem?_take_of_lt h]

/-- Settles O7: ENCODE's field is shifted (`encodeField_reservedBits`), DECODE's shift drops the low bits, and the transmit record
is one of the masked field (`mkTxRec_standard_reservedBits`). -/
theorem reservedIdentifierBitsIgnored : Obligations.ReservedIdentifierBitsIgnored := by
  refine ⟨fun id opcode payload _ => ⟨_, encodeField_reservedBits id, rfl⟩, fun f rtr data hdata => ?_, fun c f rtr data => ?_⟩
  · exact ⟨_, checkShape_S f rtr data hdata, rfl, setWidth_ushiftRight_field f⟩
  · have hmask : (f &&& 0xFFE0).setWidth 32 = f.setWidth 32 &&& 0xFFE0 := BitVec.setWidth_and
    refine ⟨?_, fun htx => ?_⟩
    · rw [hmask, ← mkTxRec_standard_reservedBits]
    · rw [← byteAt_take (n := 4) (by decide), mkTxRec_id_standard_defaultTx htx]
      rfl

/-! ### Extended identifiers -/

theorem take_four_eq {b : List Byte} (h : 4 ≤ b.length) : b.take 4 = [byteAt b 0, byteAt b 1, byteAt b 2, byteAt b 3] := by
  match b, h with
  | _ :: _ :: _ :: _ :: _, _ => rfl

/-- Settles O8: each of the four carries the identifier's own bytes. -/
theorem extendedIdentifierCarriedRaw : Obligations.ExtendedIdentifierCarriedRaw := by
  refine ⟨fun _ _ _ => rfl, fun x rtr data hdata => ?_, fun c x rtr data => ⟨?_, fun htx => ?_⟩, fun c b hext hb => ?_⟩
  · exact ⟨frameOf ⟨true, x, rtr, data⟩, by rw [decodeText, checkShape_X x rtr data hdata], rfl, rfl⟩
  · rfl
  · exact mkTxRec_id_extended_defaultTx htx x rtr data
  · rw [recToWire_extended hext, take_four_eq hb]
    rfl

/-! ### The wire formats -/

theorem answerFrame_idle {s : State} (hc : s.ctx = .poll) (hp : s.poll = .idle) {text : WireString} {c : Parsed}
    (h : checkShape text = .ok c) : answerFrame text s = .next (s.ret (.frame text (.ok c))) := by
  rw [answerFrame, State.whenIdle_idle hc hp, h]

/-- Settles O16: the shape check accepts each text with its format's fields. -/
theorem wireFormatsAccepted : Obligations.WireFormatsAccepted := by
  intro f x data s hdata hc hp
  exact ⟨answerFrame_idle hc hp (checkShape_S f false data hdata), answerFrame_idle hc hp (checkShape_S f true data hdata),
    answerFrame_idle hc hp (checkShape_X x false data hdata), answerFrame_idle hc hp (checkShape_X x true data hdata)⟩

/-- Settles O2: the decoder run on the seven words. -/
theorem specWordsDecodeToTheirRows : Obligations.SpecWordsDecodeToTheirRows := by
  unfold Obligations.SpecWordsDecodeToTheirRows
  decide

end Sys2Proof.Machine
end

section
/-! SUPPORT. The operations of one micro-step (40_codec R130, R135; 30_encoding R110, R113; 43_send R182, R192): the guards met,
each answers its value. -/

namespace Sys2Proof.Machine

/-! ### Guards that are met, or not met -/

theorem State.whenIn_of_ctx {s : State} {c : Context} (h : s.ctx = c) (k : Out) : s.whenIn c k = k := if_pos h

theorem State.whenReady_of_ready {s : State} (h : s.drv.mode = .ready) (k : Out) : s.whenReady k = k := if_pos h

theorem State.whenReady_of_uninit {s : State} (h : s.drv.mode = .uninit) (k : Out) : s.whenReady k = .refused .notReady :=
  if_neg (Mode.eq_uninit_iff.1 h)

theorem State.whenCalled_of_calls {s : State} {i : Instr} (h : s.calls i = true) (k : Out) : s.whenCalled i k = k := if_pos h

theorem State.whenCalled_refused {s : State} {i : Instr} (h : ¬ s.calls i = true) (k : Out) :
    s.whenCalled i k = .refused .wrongContext := if_neg h

/-! ### The codec -/

/-- The standard field is the identifier times 32. -/
theorem encodeField_eq_ofNat (id : BitVec 32) : (id <<< Config.idShift).setWidth 16 = BitVec.ofNat 16 (id.toNat * 32) := by
  apply BitVec.eq_of_toNat_eq
  simp only [Config.idShift, BitVec.toNat_setWidth, BitVec.toNat_shiftLeft, Nat.shiftLeft_eq, BitVec.toNat_ofNat]
  omega

theorem encodeArgs_iff (ext : Bool) (id : BitVec 32) (payload : List Byte) :
    encodeArgsOk ext id payload = true ↔ ((ext = false ∧ id.toNat ≤ 0x7FF) ∨ ext = true) ∧ payload.length ≤ 7 := by
  rw [encodeArgsOk_iff]
  cases ext <;> simp

/-- Settles O14: the two `require` lines met, ENCODE's text; else the refusal. -/
theorem encodeReturnsWireString : Obligations.EncodeReturnsWireString := by
  intro ext id opcode payload s hc hp
  rw [← encodeArgs_iff, exec, execEncode, State.whenIdle_idle hc hp, ← encodeField_eq_ofNat]
  exact ⟨fun hargs => if_pos hargs, fun hargs => if_neg hargs⟩

/-- Settles O15: DECODE's result is `decodeText`'s. -/
theorem decodeReturnsFrame : Obligations.DecodeReturnsFrame := by
  intro w s hc hp
  rw [exec, execDecode, State.whenIdle_idle hc hp, decodeText]
  refine ⟨fun e he => ?_, fun c hw => ?_⟩
  · rw [he]
    rfl
  · rw [hw]
    simp [frameOf, State.ret, Config.idShift]

theorem answerOpcode_idle {s : State} (hc : s.ctx = .poll) (hp : s.poll = .idle) (opcode : Byte) {payload : List Byte}
    (h : payload.length ≤ 7) :
    answerOpcode opcode payload s = .next (s.ret (.data (opcode :: payload) (hexBytes (opcode :: payload)))) :=
  (State.whenIdle_idle hc hp _).trans (if_pos (decide_eq_true h))

/-- Settles O17: each row is `answerOpcode` of its byte. -/
theorem opcodeBytesAreOpaqueData : Obligations.OpcodeBytesAreOpaqueData := by
  intro x hx payload s hpayload hc hp
  have hrow : exec (x.1 payload) s = answerOpcode x.2 payload s := by fin_cases hx <;> rfl
  rw [hrow, answerOpcode_idle hc hp _ hpayload]
  rfl

/-- Settles O18: the interrupt context of a live driver meets both guards. -/
theorem pseudoFramesCarrySelfId : Obligations.PseudoFramesCarrySelfId := by
  intro s hc hm
  constructor
  · rw [exec, execOwnId, State.whenIn_of_ctx hc, State.whenReady_of_ready hm]
    rfl
  · rw [exec, execCollisionRtr, State.whenIn_of_ctx hc, State.whenReady_of_ready hm]
    rfl

/-! ### Bus writes -/

/-- Settles O21: where the row is called, it is its transaction. -/
theorem busWritesSendTheirBytes : Obligations.BusWritesSendTheirBytes := fun _ =>
  ⟨fun _ _ h => State.whenCalled_of_calls h _, fun h => State.whenCalled_of_calls h _,
    fun _ h => State.whenCalled_of_calls h _, fun h => State.whenCalled_of_calls h _,
    fun h => State.whenCalled_of_calls h _, fun h => State.whenCalled_of_calls h _⟩

/-! ### Before INITIALIZE has succeeded -/

theorem State.calls_irq_uninit {s : State} (hc : s.ctx = .irq) (hm : s.drv.mode = .uninit) (i : Instr) :
    ¬ s.calls i = true := by
  simp [State.calls, State.irqCalls, hc, hm]

/-- Settles O28: each operation's context guard is met and its second guard, on the driver, is not. -/
theorem driverOperationsNeedReady : Obligations.DriverOperationsNeedReady := by
  intro s w r hm
  refine ⟨fun hc hp => ?_, fun hc => ?_, fun hc => ?_, fun hc => ?_⟩
  · have hrefused (k : Out) : s.whenIdle (s.whenReady k) = .refused .notReady := by
      rw [State.whenIdle_idle hc hp, State.whenReady_of_uninit hm]
    simp only [List.forall_mem_cons]
    exact ⟨hrefused _, hrefused _, hrefused _, List.forall_mem_nil _⟩
  · have hrefused (k : Out) : s.whenIn .irq (s.whenReady k) = .refused .notReady := by
      rw [State.whenIn_of_ctx hc, State.whenReady_of_uninit hm]
    simp only [List.forall_mem_cons]
    exact ⟨hrefused _, hrefused _, hrefused _, hrefused _, List.forall_mem_nil _⟩
  · exact ⟨State.whenCalled_refused (State.calls_irq_uninit hc hm _) _,
      State.whenCalled_refused (State.calls_irq_uninit hc hm _) _⟩
  · exact (State.whenIn_of_ctx hc _).trans (State.whenReady_of_uninit hm _)

/-! ### SEND's first micro-step and TX_FIRE -/

/-- Settles O29: S1 alone. -/
theorem sendChecksShapeFirst : Obligations.SendChecksShapeFirst := fun _ _ hc hp hm =>
  ⟨fun _ he => execSend_error hc hp hm he, fun _ hw => execSend_ok hc hp hm hw⟩

/-- Settles O34: in its context TX_FIRE of a record is `State.txFire`. -/
theorem txFireLoadsAndRequests : Obligations.TxFireLoadsAndRequests := by
  intro r s hlo hhi hm
  have hok : txRecordOk r = true := by simp [txRecordOk, hlo, hhi]
  have hfires (hc : s.ctx = .irq) : exec (.txFire r) s = .next (s.txFire r) :=
    (State.whenIn_of_ctx hc _).trans ((State.whenReady_of_ready hm _).trans (if_pos hok))
  refine ⟨fun hc => exec_handlerOperation_wrongContext rfl hc, fun hc habsent => ?_, fun hc hpresent => ?_⟩
  · rw [hfires hc, State.txFire_absent s r habsent]
  · rw [hfires hc, State.txFire_present s r hpresent]
    simp [State.txRequest, State.regWrite, State.txLoad, State.transaction, State.setChip, State.record, State.busTransfer,
      State.busCs, State.setEnv, Env.takeBytes, loadEvent, requestEvent, writeEvent, Chip.txctrlReq]

/-! ### Where the handlers run -/

theorem State.deliverable_iff (s : State) :
    s.deliverable = true ↔ s.drv.mode = .ready ∧ s.drv.irqEnabled = true ∧ s.drv.irqPend = true ∧ s.drv.irqMask = false := by
  simp [State.deliverable, and_assoc]

/-- Settles O37: a write index inside the ring leaves the handler's guards alone to decide. -/
theorem handlerRunsWhereDeliverable : Obligations.HandlerRunsWhereDeliverable := by
  intro s hwr
  rw [← State.deliverable_iff]
  constructor
  · rintro ⟨t, ht⟩
    obtain ⟨hc, hd, -⟩ := exec_irq_next ht
    exact ⟨hc, hd⟩
  · rintro ⟨hc, hd⟩
    rw [exec_irq s hc hd]
    exact exists_irqBody_next hwr

/-- Settles O44: the callback's guards are the rule's conditions. -/
theorem timerStepEnabledExactlyWhenDue : Obligations.TimerStepEnabledExactlyWhenDue := by
  intro s
  constructor
  · rintro ⟨t, ht⟩
    obtain ⟨hc, hm, hdue, -⟩ := exec_enumeration_next ht
    obtain ⟨-, harmed, hdeadline⟩ := (State.timerDue_iff _ _).1 hdue
    exact ⟨hc, hm, harmed, hdeadline⟩
  · rintro ⟨hc, hm, harmed, hdeadline⟩
    exact ⟨_, exec_enumeration s hc hm ((State.timerDue_iff _ _).2 ⟨hm, harmed, hdeadline⟩)⟩

/-! ### Power-on and restart -/

/-- Settles O54: the fields of `State.restart`. -/
theorem restartKeepsOnlyStorage : Obligations.RestartKeepsOnlyStorage := fun s =>
  ⟨s.restart, rfl, rfl, rfl, rfl, rfl, rfl, rfl, rfl⟩

/-- At power-on POLL is idle and there is no live driver. -/
theorem powerOn_slotsOk (p : Params) : SlotsOk (State.powerOn p) := by
  constructor
  all_goals simp [State.powerOn, Driver.powerOn]

theorem powerOn_idOk {p : Params} (h : p.wf = true) : IdOk (State.powerOn p) := by
  simp only [Params.wf, Bool.and_eq_true] at h
  constructor
  · exact h.2
  all_goals simp [State.powerOn, Driver.powerOn]

theorem powerOn_lifeOk {p : Params} (h : p.wf = true) : LifeOk (State.powerOn p) :=
  .of_uninit rfl h (fun h => by cases h) (.inl rfl) ⟨rfl, rfl, rfl, rfl, rfl⟩ (fun h => by cases h)

/-- Settles O60: the values are power-on's fields, and each invariant holds of them. -/
theorem powerOnMeetsInvariants : Obligations.PowerOnMeetsInvariants := by
  intro p hp s
  refine ⟨rfl, State.cfg_unset _ rfl rfl, rfl, rfl, rfl, rfl, rfl, rfl, rfl, rfl, rfl, ⟨rfl, rfl, rfl⟩, rfl, powerOn_lifeOk hp,
    powerOn_idOk hp, powerOn_slotsOk p, ?_, rfl⟩
  intro ws hws
  cases hws

end Sys2Proof.Machine
end

section
/-! SUPPORT. One step of the machine (20_memory R71; logs 1, 2, 13): what the fetch finds and what each turn runs. -/

namespace Sys2Proof.Machine

theorem fetchNext_nothing {s : State} (h : s.program = []) : fetchNext s = .nothing := by
  rw [fetchNext, h]

theorem fetchNext_issued {s : State} {i : Instr} {rest : List Byte} (hd : decode s.program = .ok (i, rest)) :
    fetchNext s = .issued i (s.setProgram rest) := by
  unfold fetchNext
  split
  case h_1 hp =>
    rw [hp] at hd
    cases hd
  case h_2 => rw [hd]

theorem fetchNext_bad {s : State} {e : DecodeError} (hp : s.program ≠ []) (hd : decode s.program = .error e) :
    fetchNext s = .bad e := by
  unfold fetchNext
  split
  case h_1 hnil => exact absurd hnil hp
  case h_2 => rw [hd]

section

variable {s : State} (h : s.ctx = .poll → s.poll = .idle)
include h

theorem not_inside_operation : ¬ (s.ctx = .poll ∧ s.poll ≠ .idle) := fun ⟨hc, hp⟩ => hp (h hc)

theorem runTurn_issued {i : Instr} {rest : List Byte} (hd : decode s.program = .ok (i, rest)) :
    runTurn s = exec i (s.setProgram rest) := by
  rw [runTurn, if_neg (not_inside_operation h), fetchNext_issued hd]

theorem runTurn_nothing (hp : s.program = []) : runTurn s = .next s := by
  rw [runTurn, if_neg (not_inside_operation h), fetchNext_nothing hp]

theorem runTurn_bad {e : DecodeError} (hp : s.program ≠ []) (hd : decode s.program = .error e) :
    runTurn s = .refused (.illegalEncoding e) := by
  rw [runTurn, if_neg (not_inside_operation h), fetchNext_bad hp hd]

end

theorem step_of_turn {s : State} {t : Turn} (h : s.takeTurn.1 = t) : step s = takeMove t s.takeTurn.2 := by
  rw [step, h]

/-- The timer's turn where the callback would run in its context. -/
theorem timerTurn_of_enabled {u t : State} (hc : u.ctx = .poll) (h : exec .runEnumeration (u.enter .timer) = .next t) :
    timerTurn u = exec .runEnumeration (u.enter .timer) := by
  obtain ⟨-, hm, hdue, -⟩ := exec_enumeration_next h
  exact if_pos ⟨hc, hm, hdue⟩

theorem timerTurn_of_not_enabled {u : State} (h : u.ctx = .poll → ∀ t, exec .runEnumeration (u.enter .timer) ≠ .next t) :
    timerTurn u = .next u.now.2 :=
  if_neg fun ⟨hc, hm, hdue⟩ => h hc _ (exec_enumeration (u.enter .timer) rfl hm hdue)

theorem decodeTableWord_of_decode {nbits w : Nat} {i : Instr} {rest : List Byte}
    (h : decode (tableStream nbits w) = .ok (i, rest)) : decodeTableWord nbits w = some i := by
  rw [decodeTableWord, h]

/-- A placed word's turn is the running code's, in the state with the word as its stream. -/
theorem step_withFetchWord (s : State) (nbits w : Nat) : step (s.withFetchWord nbits w) = runTurn { s with
    program := tableStream nbits w, ctx := (decodeTableWord nbits w).elim .poll callContext, poll := .idle } := rfl

/-- Settles O47: each clause is its turn's move, with the guard of that turn met or not. -/
theorem stepRunsDecodedOperation : Obligations.StepRunsDecodedOperation := by
  intro s u fetches
  refine ⟨fun ⟨hturn, hidle⟩ i rest _ hd => ?_, fun ⟨hturn, hidle⟩ hp => ?_, fun ⟨hturn, hidle⟩ e hp hd => ?_,
    fun hturn hc hp => ?_, fun hturn hc hd => ?_, fun hturn hno => ?_, fun hturn hc ⟨t, ht⟩ => ?_, fun hturn hno => ?_,
    fun nbits w i rest hd => ?_⟩
  · exact (step_of_turn hturn).trans (runTurn_issued (s := u) hidle hd)
  · exact (step_of_turn hturn).trans (runTurn_nothing (s := u) hidle hp)
  · exact (step_of_turn hturn).trans (runTurn_bad (s := u) hidle hp hd)
  · exact (step_of_turn hturn).trans (if_pos ⟨hc, hp⟩)
  · exact (step_of_turn hturn).trans (if_pos ⟨hc, hd⟩)
  · refine (step_of_turn hturn).trans (if_neg fun ⟨hc, hd⟩ => ?_)
    rcases hno with hno | hno
    · exact hno hc
    · exact absurd hd (Bool.eq_false_iff.1 hno)
  · exact (step_of_turn hturn).trans (timerTurn_of_enabled hc ht)
  · exact (step_of_turn hturn).trans (timerTurn_of_not_enabled hno)
  · rw [step_withFetchWord, runTurn_issued (fun _ => rfl) hd, decodeTableWord_of_decode hd]
    rfl

end Sys2Proof.Machine
end

section
/-! SUPPORT. The handler and the read index (44_receive_path R205): the handler's run commutes with any other value of `rd`. -/

namespace Sys2Proof.Machine

/-- The state with another read index. -/
def State.withRd (s : State) (k : Nat) : State := { s with drv := { s.drv with rd := k } }

section

variable (s : State) (k : Nat)

@[simp] theorem State.withRd_params : (s.withRd k).params = s.params := rfl
@[simp] theorem State.withRd_drv : (s.withRd k).drv = { s.drv with rd := k } := rfl

theorem State.transaction_withRd (w : List Byte) (n : Nat) :
    (s.withRd k).transaction w n = ((s.transaction w n).1, (s.transaction w n).2.withRd k) := rfl

theorem State.rxRead_withRd : (s.withRd k).rxRead = (s.rxRead.1, s.rxRead.2.withRd k) := by
  rw [State.rxRead, State.rxRead, State.transaction_withRd, State.withRd_params]

theorem State.enqueue_withRd (r : List Byte) : (s.withRd k).enqueue r = (s.enqueue r).withRd k := rfl
theorem State.leave_withRd : (s.withRd k).leave = s.leave.withRd k := rfl
theorem caseA_withRd (r : List Byte) : caseA (s.withRd k) r = caseA s r := rfl
theorem caseB_withRd (r : List Byte) : caseB (s.withRd k) r = caseB s r := rfl

theorem State.txFire_withRd (r : List Byte) : (s.withRd k).txFire r = (s.txFire r).withRd k := by
  cases h : s.drv.absent with
  | true => rw [State.txFire_absent s r h, State.txFire_absent (s.withRd k) r h]
  | false => rw [State.txFire_present s r h, State.txFire_present (s.withRd k) r h]; rfl

theorem State.pushSeen_withRd (p : IdPair) : (s.withRd k).pushSeen p = (s.pushSeen p).withRd k := by
  unfold State.pushSeen
  rw [State.withRd_drv, State.withRd_params]
  split <;> rfl

theorem State.collide_withRd : (s.withRd k).collide = s.collide.withRd k := by
  unfold State.collide
  rw [State.withRd_drv, State.withRd_params, State.txFire_withRd]
  rfl

end

/-- Each case of the handler's body in the state with another read index. -/
theorem irqBody_withRd {s t : State} (k : Nat) (h : irqBody s = .next t) : irqBody (s.withRd k) = .next (t.withRd k) := by
  rcases irqBody_cases h with ⟨hA, rfl⟩ | ⟨hA, hB, rfl⟩ | ⟨hA, hB, hwr, ⟨hm, rfl⟩ | ⟨hm, rfl⟩⟩
  · simp [irqBody, State.rxRead_withRd, caseA_withRd, hA, State.txFire_withRd, State.leave_withRd]
  · simp [irqBody, State.rxRead_withRd, caseA_withRd, caseB_withRd, hA, hB, State.pushSeen_withRd, State.leave_withRd]
  · simp [irqBody, State.rxRead_withRd, caseA_withRd, caseB_withRd, hA, hB, hwr, hm, State.enqueue_withRd, State.collide_withRd,
      State.leave_withRd]
  · simp [irqBody, State.rxRead_withRd, caseA_withRd, caseB_withRd, hA, hB, hwr, hm, State.enqueue_withRd, State.leave_withRd]

/-- Settles O36: neither the guards nor the body look at the read index. -/
theorem handlerIgnoresReadIndex : Obligations.HandlerIgnoresReadIndex := by
  intro s t k h
  obtain ⟨hc, hd, hbody⟩ := exec_irq_next h
  exact (exec_irq (s.withRd k) hc hd).trans (irqBody_withRd k hbody)

end Sys2Proof.Machine
end

section
/-! SUPPORT. RECEIVE and AVAILABLE (44_receive_path R210 to R215; 20_memory R64 to R66): the number of unread records, RECEIVE run
by POLL alone, and the unread records of a ring as a queue. -/

namespace Sys2Proof.Machine

/-! ### The number of unread records -/

section

variable {n wr rd : Nat} (hwr : wr < n) (hrd : rd < n)
include hwr hrd

theorem ringCount_eq : ringCount n wr rd = if rd ≤ wr then wr - rd else n + wr - rd := by
  unfold ringCount
  split
  case isTrue h =>
    rw [Int.emod_eq_of_lt (by omega) (by omega)]
    omega
  case isFalse h =>
    rw [← Int.add_emod_right, Int.emod_eq_of_lt (by omega) (by omega)]
    omega

theorem ringCount_lt : ringCount n wr rd < n := by
  rw [ringCount_eq hwr hrd]
  split <;> omega

theorem add_ringCount_mod : (rd + ringCount n wr rd) % n = wr := by
  rw [ringCount_eq hwr hrd]
  split
  case isTrue h => rw [Nat.add_sub_cancel' h, Nat.mod_eq_of_lt hwr]
  case isFalse h =>
    have hsum : rd + (n + wr - rd) = n + wr := by omega
    rw [hsum, Nat.add_mod_left, Nat.mod_eq_of_lt hwr]

end

/-- The count is the only number below the capacity that leads from the read to the write index. -/
theorem ringCount_add_mod {n rd c : Nat} (hc : c < n) (hrd : rd < n) : ringCount n ((rd + c) % n) rd = c := by
  have hn : 0 < n := by omega
  rw [ringCount_eq (Nat.mod_lt _ hn) hrd]
  rcases Nat.lt_or_ge (rd + c) n with h | h
  · rw [Nat.mod_eq_of_lt h, if_pos (Nat.le_add_right _ _)]
    omega
  · have hmod : (rd + c) % n = rd + c - n := by
      rw [Nat.mod_eq_sub_mod h, Nat.mod_eq_of_lt (by omega)]
    rw [hmod, if_neg (by omega)]
    omega

theorem exec_available {s : State} (hc : s.ctx = .poll) (hp : s.poll = .idle) (hm : s.drv.mode = .ready) :
    exec .available s = .next (s.ret (.count (ringCount s.params.n s.drv.wr s.drv.rd))) :=
  (State.whenIdle_idle hc hp _).trans (State.whenReady_of_ready hm _)

/-- Settles O39: AVAILABLE's value is `ringCount`. -/
theorem availableCountsUnread : Obligations.AvailableCountsUnread := fun _ hc hp hm hwr hrd =>
  ⟨_, exec_available hc hp hm, ringCount_lt hwr hrd, add_ringCount_mod hwr hrd⟩

/-! ### RECEIVE run by POLL alone -/

/-- The first `j` bytes of a slot, as RECEIVE copies them. -/
def slotPrefix (s : State) (k j : Nat) : List Byte :=
  (List.range j).map fun i => (Memory.read s.drv.ring (slotAddr k i)).getD (Config.unwrittenByte (slotAddr k i))

theorem slotPrefix_length (s : State) (k j : Nat) : (slotPrefix s k j).length = j := by simp [slotPrefix]

theorem slotPrefix_succ (s : State) (k j : Nat) : slotPrefix s k (j + 1) = slotPrefix s k j
    ++ [(Memory.read s.drv.ring (slotAddr k j)).getD (Config.unwrittenByte (slotAddr k j))] := by
  simp [slotPrefix, List.range_succ]

theorem slotPrefix_recBytes (s : State) (k : Nat) : slotPrefix s k Config.recBytes = slotBytes s k := rfl

/-- V3 from the first `j` bytes to the first `j + 1`. -/
theorem pollContinue_slotPrefix {s : State} {j : Nat} (hp : s.poll = .recvCopy (slotPrefix s s.drv.rd j))
    (hrd : s.drv.rd < s.drv.slots) : pollContinue s = .next (s.goto (if j + 1 < Config.recBytes
      then .recvCopy (slotPrefix s s.drv.rd (j + 1)) else .recvAdvance (slotPrefix s s.drv.rd (j + 1)))) := by
  rw [pollContinue_recvCopy hp hrd rfl, slotPrefix_length, ← slotPrefix_succ, slotPrefix_length]

/-- The copy of a slot, the first `j` bytes done, takes a micro-step for each of the other `m + 1`. -/
theorem pollRun_recvCopy {s : State} (hrd : s.drv.rd < s.drv.slots) {j m : Nat} (hj : j + (m + 1) = Config.recBytes) (k : Nat) :
    pollRun (k + (m + 1)) (s.goto (.recvCopy (slotPrefix s s.drv.rd j)))
      = pollRun k (s.goto (.recvAdvance (slotBytes s s.drv.rd))) := by
  induction m generalizing j with
  | zero =>
    have hstep := pollContinue_slotPrefix (s := s.goto (.recvCopy (slotPrefix s s.drv.rd j))) rfl hrd
    rw [if_neg (by omega)] at hstep
    rw [Nat.zero_add, pollRun_succ (by simp) hstep, ← slotPrefix_recBytes, ← hj]
    rfl
  | succ m ih =>
    have hstep := pollContinue_slotPrefix (s := s.goto (.recvCopy (slotPrefix s s.drv.rd j))) rfl hrd
    rw [if_pos (by omega)] at hstep
    rw [← Nat.add_assoc, pollRun_succ (by simp) hstep]
    exact ih (by omega)

/-- What RECEIVE of a ring that is not empty leaves: the oldest slot returned, the read index past it. -/
def State.received (s : State) : State := { s with
  poll := .idle
  drv := { s.drv with rd := (s.drv.rd + 1) % s.params.n }
  result := some (.received (some (recToWire s.params.chip (slotBytes s s.drv.rd)))) }

theorem exec_receive {s : State} (hc : s.ctx = .poll) (hp : s.poll = .idle) (hm : s.drv.mode = .ready) :
    exec .receive s = .next (s.start (.recvCompare s.drv.wr)) :=
  (State.whenIdle_idle hc hp _).trans (State.whenReady_of_ready hm _)

theorem callRun_receive_empty {s : State} (hc : s.ctx = .poll) (hp : s.poll = .idle) (hm : s.drv.mode = .ready)
    (hempty : s.drv.wr = s.drv.rd) : callRun .receive 20 s = .next (s.ret (.received none)) := by
  have hV2 : pollContinue (s.start (.recvCompare s.drv.wr)) = .next (s.ret (.received none)) :=
    congrArg Host.Outcome.next (if_pos hempty)
  rw [callRun_of_exec (exec_receive hc hp hm), pollRun_succ (by simp) hV2, pollRun_idle rfl]

theorem callRun_receive_unread {s : State} (hc : s.ctx = .poll) (hp : s.poll = .idle) (hm : s.drv.mode = .ready)
    (hrd : s.drv.rd < s.drv.slots) (hunread : s.drv.wr ≠ s.drv.rd) : callRun .receive 20 s = .next s.received := by
  let u := s.start (.recvCopy (slotPrefix s s.drv.rd 0))
  have hV2 : pollContinue (s.start (.recvCompare s.drv.wr)) = .next u := congrArg Host.Outcome.next (if_neg hunread)
  have hV4 : pollContinue (u.goto (.recvAdvance (slotBytes s s.drv.rd)))
      = .next (recvAdvanceStep (slotBytes s s.drv.rd) u) := rfl
  have hV5 : pollContinue (recvAdvanceStep (slotBytes s s.drv.rd) u) = .next s.received := rfl
  rw [callRun_of_exec (exec_receive hc hp hm), pollRun_succ (by simp) hV2]
  exact (pollRun_recvCopy (s := u) hrd (j := 0) (m := 12) rfl 6).trans
    ((pollRun_succ (by simp) hV4 5).trans ((pollRun_succ (by simp [recvAdvanceStep]) hV5 4).trans (pollRun_idle rfl 4)))

/-- Settles O38: V2 alone on an empty ring, else V2, thirteen times V3, V4, V5. -/
theorem receiveReturnsOldestSlot : Obligations.ReceiveReturnsOldestSlot := fun _ hc hp hm hrd =>
  ⟨exec_receive hc hp hm, callRun_receive_empty hc hp hm, callRun_receive_unread hc hp hm hrd⟩

/-! ### The ring as a queue (R66) -/

/-- In POLL's context, POLL idle on a live driver with an allocated ring: the unread records are `q`, oldest first. -/
structure Unread (s : State) (q : List (List Byte)) : Prop where
  ctx : s.ctx = .poll
  idle : s.poll = .idle
  ready : s.drv.mode = .ready
  slots : s.drv.slots = s.params.n
  rd : s.drv.rd < s.params.n
  room : q.length < s.params.n
  wr : s.drv.wr = (s.drv.rd + q.length) % s.params.n
  lengths : ∀ r ∈ q, r.length = Config.recBytes
  holds : ∀ (i : Nat) (r : List Byte), q[i]? = some r → SlotHolds s ((s.drv.rd + i) % s.params.n) r

/-- Two positions less than a round apart are different slots. -/
theorem add_mod_ne {n a i j : Nat} (hij : i < j) (hjn : j < i + n) : (a + i) % n ≠ (a + j) % n := by
  intro h
  have hdvd : n ∣ (a + j) - (a + i) := (Nat.modEq_iff_dvd' (by omega)).1 h
  have := Nat.le_of_dvd (by omega) hdvd
  omega

theorem SlotHolds.enqueue {s : State} {k : Nat} {r r' : List Byte} (h : SlotHolds s k r) (hr' : r'.length = Config.recBytes)
    (hk : k ≠ s.drv.wr) : SlotHolds (s.enqueue r') k r := by
  intro i hi
  rw [s.enqueue_outside r' hr' _ (slotAddr_disjoint hi hk)]
  exact h i hi

/-- The bytes RECEIVE copies of a slot that holds a record. -/
theorem SlotHolds.slotBytes_eq {s : State} {k : Nat} {r : List Byte} (h : SlotHolds s k r) (hr : r.length = Config.recBytes) :
    slotBytes s k = r := by
  rw [← range_map_byteAt r, hr, slotBytes]
  refine List.map_congr_left fun i hi => ?_
  rw [h i (List.mem_range.1 hi)]
  rfl

section

variable {s : State} {q : List (List Byte)} (h : Unread s q) {r : List Byte}
include h

theorem Unread.ringCount_eq : ringCount s.params.n s.drv.wr s.drv.rd = q.length := by
  rw [h.wr, ringCount_add_mod h.room h.rd]

theorem Unread.enqueue_wr : (s.enqueue r).drv.wr = (s.drv.rd + (q.length + 1)) % s.params.n := by
  rw [State.enqueue_drv, h.wr, Nat.mod_add_mod, Nat.add_assoc]

/-- An enqueue with room joins the queue at its end. -/
theorem Unread.enqueue (hr : r.length = Config.recBytes) (hroom : q.length + 1 < s.params.n) : Unread (s.enqueue r) (q ++ [r]) := by
  refine ⟨h.ctx, h.idle, h.ready, h.slots, h.rd, ?_, ?_, ?_, fun i x hx => ?_⟩
  · rwa [List.length_append]
  · rw [List.length_append]
    exact h.enqueue_wr
  · exact List.forall_mem_append.2 ⟨h.lengths, List.forall_mem_singleton.2 hr⟩
  show SlotHolds (s.enqueue r) ((s.drv.rd + i) % s.params.n) x
  rcases Nat.lt_trichotomy i q.length with hi | hi | hi
  · rw [List.getElem?_append_left hi] at hx
    refine (h.holds i x hx).enqueue hr ?_
    rw [h.wr]
    exact add_mod_ne hi (by omega)
  · subst hi
    rw [List.getElem?_append_right le_rfl, Nat.sub_self] at hx
    cases hx
    rw [← h.wr]
    exact s.enqueue_holds r hr
  · rw [List.getElem?_eq_none (by simp; omega)] at hx
    cases hx

/-- An enqueue without room makes the ring read as empty: every unread record is lost. -/
theorem Unread.enqueue_full (hfull : q.length + 1 = s.params.n) : Unread (s.enqueue r) [] := by
  have hwr := h.enqueue_wr (r := r)
  rw [hfull, Nat.add_mod_right] at hwr
  exact ⟨h.ctx, h.idle, h.ready, h.slots, h.rd, Nat.zero_lt_of_lt h.rd, hwr, List.forall_mem_nil _, fun i x hx => by cases hx⟩

end

/-- RECEIVE takes the oldest record off the queue. -/
theorem Unread.receive {s : State} {r : List Byte} {q : List (List Byte)} (h : Unread s (r :: q)) :
    callRun .receive 20 s = .next s.received
      ∧ s.received.result = some (.received (some (recToWire s.params.chip r))) ∧ Unread s.received q := by
  have hq : q.length + 1 < s.params.n := h.room
  have hunread : s.drv.wr ≠ s.drv.rd := by
    have hne := add_mod_ne (n := s.params.n) (a := s.drv.rd) (Nat.succ_pos q.length) (by omega)
    rw [Nat.add_zero, Nat.mod_eq_of_lt h.rd] at hne
    rw [h.wr]
    exact hne.symm
  have hslot : SlotHolds s s.drv.rd r := by
    have := h.holds 0 r rfl
    rwa [Nat.add_zero, Nat.mod_eq_of_lt h.rd] at this
  refine ⟨callRun_receive_unread h.ctx h.idle h.ready (h.slots ▸ h.rd) hunread, ?_, ?_⟩
  · rw [State.received, hslot.slotBytes_eq (h.lengths r List.mem_cons_self)]
  · refine ⟨h.ctx, rfl, h.ready, h.slots, Nat.mod_lt _ (Nat.zero_lt_of_lt hq), Nat.lt_of_succ_lt hq, ?_, fun x hx => h.lengths x (List.mem_cons_of_mem _ hx),
      fun i x hx => ?_⟩
    · show s.drv.wr = ((s.drv.rd + 1) % s.params.n + q.length) % s.params.n
      rw [Nat.mod_add_mod, h.wr, List.length_cons]
      congr 1
      omega
    · show SlotHolds s (((s.drv.rd + 1) % s.params.n + i) % s.params.n) x
      have hx' := h.holds (i + 1) x hx
      rwa [Nat.mod_add_mod, Nat.add_assoc, Nat.add_comm 1 i]

theorem Unread.receive_nil {s : State} (h : Unread s []) : callRun .receive 20 s = .next (s.ret (.received none)) := by
  refine callRun_receive_empty h.ctx h.idle h.ready ?_
  rw [h.wr, List.length_nil, Nat.add_zero, Nat.mod_eq_of_lt h.rd]

/-- As many RECEIVEs as there are unread records return them all, oldest first. -/
theorem Unread.receiveMany {s : State} {q : List (List Byte)} (h : Unread s q) :
    ∃ u, Machine.receiveMany q.length s = some (q.map fun r => some (recToWire s.params.chip r), u) ∧ Unread u [] := by
  induction q generalizing s with
  | nil => exact ⟨s, rfl, h⟩
  | cons r q ih =>
    obtain ⟨hrun, hres, hrest⟩ := h.receive
    obtain ⟨u, hu, hempty⟩ := ih hrest
    refine ⟨u, ?_, hempty⟩
    rw [List.length_cons, Machine.receiveMany, hrun]
    simp only [hres, hu]
    rfl

/-- From an empty ring, the unread records after enqueueing `rs` are its last `|rs| mod N`. -/
theorem Unread.foldl_enqueue {s : State} (h : Unread s []) (rs : List (List Byte)) (hrs : ∀ r ∈ rs, r.length = Config.recBytes) :
    Unread (rs.foldl State.enqueue s) (rs.drop (rs.length - rs.length % s.params.n))
      ∧ (rs.foldl State.enqueue s).params = s.params := by
  induction rs using List.reverseRecOn with
  | nil => exact ⟨h, rfl⟩
  | append_singleton rs r ih =>
    rw [List.forall_mem_append, List.forall_mem_singleton] at hrs
    obtain ⟨hq, hparams⟩ := ih hrs.1
    have hn : 0 < s.params.n := Nat.zero_lt_of_lt h.rd
    have hmod : rs.length % s.params.n < s.params.n := Nat.mod_lt _ hn
    have hle : rs.length % s.params.n ≤ rs.length := Nat.mod_le _ _
    have hlen : (rs.drop (rs.length - rs.length % s.params.n)).length = rs.length % s.params.n := by simp; omega
    rw [List.foldl_append, List.foldl_cons, List.foldl_nil, List.length_append, List.length_singleton]
    refine ⟨?_, hparams⟩
    by_cases hfull : rs.length % s.params.n + 1 = s.params.n
    · have hwrap : (rs.length + 1) % s.params.n = 0 := by rw [← Nat.mod_add_mod, hfull, Nat.mod_self]
      rw [hwrap, Nat.sub_zero, List.drop_eq_nil_of_le (by simp)]
      exact hq.enqueue_full (by rw [hlen, hparams, hfull])
    · have hnext : (rs.length + 1) % s.params.n = rs.length % s.params.n + 1 := by
        rw [← Nat.mod_add_mod, Nat.mod_eq_of_lt (by omega)]
      rw [hnext, Nat.add_sub_add_right, List.drop_append_of_le_length (by omega)]
      exact hq.enqueue hrs.2 (by rw [hlen, hparams]; omega)

/-- Settles O40: the enqueues leave a queue (`Unread.foldl_enqueue`), which AVAILABLE counts and RECEIVE takes apart. -/
theorem receiveInOrderAfterEnqueues : Obligations.ReceiveInOrderAfterEnqueues := by
  intro s rs hc hp hm hn hslots hwr hrd hrs t k
  have hempty : Unread s [] :=
    ⟨hc, hp, hm, hslots, hrd ▸ hwr, by simp; omega, by simp [hrd, Nat.mod_eq_of_lt hwr], List.forall_mem_nil _, fun i x hx => by cases hx⟩
  obtain ⟨hq, hparams⟩ := hempty.foldl_enqueue rs hrs
  have hk : (rs.drop (rs.length - k)).length = k := by
    have hle : k ≤ rs.length := Nat.mod_le _ _
    simp
    omega
  have hcount : ringCount t.params.n t.drv.wr t.drv.rd = k := hq.ringCount_eq.trans hk
  refine ⟨?_, ?_⟩
  · have hsame : ({ t with result := some (.count k) } : State) = t.ret (.count k) := by
      rw [State.ret, ← hq.idle]
    rw [exec_available hq.ctx hq.idle hq.ready, hcount, hsame]
  · obtain ⟨u, hu, hnil⟩ := hq.receiveMany
    rw [hk, hparams] at hu
    exact ⟨u, _, hu, hnil.receive_nil, rfl⟩

end Sys2Proof.Machine
end

section
/-! SUPPORT. RECEIVE with enqueues between its micro-steps (20_memory R75, R76): the slot it copies stays as it was while the write
index has not gone round to it. -/

namespace Sys2Proof.Machine

/-- `u` is `s` after `e` enqueues that left slot `rd` of `s` alone, whatever POLL did. -/
structure SlotKept (s : State) (e : Nat) (u : State) : Prop where
  params : u.params = s.params
  slots : u.drv.slots = s.drv.slots
  wr : u.drv.wr = (s.drv.wr + e) % s.params.n
  slot : ∀ i, i < Config.recBytes → Memory.read u.drv.ring (slotAddr s.drv.rd i) = Memory.read s.drv.ring (slotAddr s.drv.rd i)

/-- POLL's positions inside the RECEIVE that read the write index in `s`, each with the read index and what is copied by then. -/
inductive ReceiveAt (s u : State) : Prop
  | compare (hp : u.poll = .recvCompare s.drv.wr) (hrd : u.drv.rd = s.drv.rd)
  | copy (j : Nat) (hj : j < Config.recBytes) (hp : u.poll = .recvCopy (slotPrefix s s.drv.rd j)) (hrd : u.drv.rd = s.drv.rd)
  | advance (hp : u.poll = .recvAdvance (slotBytes s s.drv.rd)) (hrd : u.drv.rd = s.drv.rd)
  | ret (hp : u.poll = .recvReturn (slotBytes s s.drv.rd)) (hrd : u.drv.rd = (s.drv.rd + 1) % s.params.n)
  | returned (hp : u.poll = .idle) (hrd : u.drv.rd = (s.drv.rd + 1) % s.params.n)
      (hres : u.result = some (.received (some (recToWire s.params.chip (slotBytes s s.drv.rd)))))

section

variable {s u v : State} {e : Nat} (hkept : SlotKept s e u)
include hkept

/-- An enqueue before the write index has come round to slot `rd`. -/
theorem SlotKept.enqueue (hwr : s.drv.wr < s.params.n) (hrd : s.drv.rd < s.params.n) (hunread : s.drv.wr ≠ s.drv.rd)
    (he : e < s.params.n - ringCount s.params.n s.drv.wr s.drv.rd) {r : List Byte} (hr : r.length = Config.recBytes) :
    SlotKept s (e + 1) (u.enqueue r) := by
  have hcount := add_ringCount_mod hwr hrd
  have hpos : 0 < ringCount s.params.n s.drv.wr s.drv.rd := by
    rw [Nat.pos_iff_ne_zero]
    intro h0
    rw [h0, Nat.add_zero, Nat.mod_eq_of_lt hrd] at hcount
    exact hunread hcount.symm
  have hother : s.drv.rd ≠ u.drv.wr := by
    have hne := add_mod_ne (n := s.params.n) (a := s.drv.rd) (i := 0) (j := ringCount s.params.n s.drv.wr s.drv.rd + e)
      (by omega) (by omega)
    rwa [Nat.add_zero, Nat.mod_eq_of_lt hrd, ← Nat.add_assoc, ← Nat.mod_add_mod, hcount, ← hkept.wr] at hne
  refine ⟨hkept.params, hkept.slots, ?_, fun i hi => ?_⟩
  · rw [State.enqueue_drv, hkept.wr, hkept.params, Nat.mod_add_mod, Nat.add_assoc]
  · rw [u.enqueue_outside r hr _ (slotAddr_disjoint hi hother)]
    exact hkept.slot i hi

theorem SlotKept.slotPrefix_eq {j : Nat} (hj : j ≤ Config.recBytes) : slotPrefix u s.drv.rd j = slotPrefix s s.drv.rd j := by
  refine List.map_congr_left fun i hi => ?_
  rw [hkept.slot i ((List.mem_range.1 hi).trans_le hj)]

/-- POLL's micro-steps touch neither the write index nor the slot. -/
theorem SlotKept.pollContinue (hu : ReceiveAt s u) (h : Machine.pollContinue u = .next v) : SlotKept s e v := by
  have stays (hdrv : v.drv = { u.drv with rd := v.drv.rd }) : SlotKept s e v := by
    refine ⟨(pollContinue_frame h).params.trans hkept.params, ?_, ?_, ?_⟩ <;> rw [hdrv]
    · exact hkept.slots
    · exact hkept.wr
    · exact hkept.slot
  refine stays ?_
  unfold Machine.pollContinue at h
  cases hu with
  | compare hp =>
    rw [hp] at h
    cases h
    unfold recvCompareStep
    split <;> rfl
  | copy j _ hp =>
    rw [hp] at h
    dsimp only at h
    unfold recvCopyStep at h
    split at h
    · cases h
      rfl
    · cases h
  | advance hp | ret hp | returned hp =>
    rw [hp] at h
    cases h
    rfl

/-- POLL's micro-step leads from each of RECEIVE's positions to the next one. -/
theorem ReceiveAt.pollContinue (hu : ReceiveAt s u) (hunread : s.drv.wr ≠ s.drv.rd) (hrd : s.drv.rd < s.drv.slots)
    (h : Machine.pollContinue u = .next v) : ReceiveAt s v := by
  cases hu with
  | compare hp hr =>
    have hV2 : Machine.pollContinue u = .next (u.goto (.recvCopy [])) := by
      unfold Machine.pollContinue
      rw [hp]
      exact congrArg Host.Outcome.next (if_neg (hr ▸ hunread))
    rw [hV2] at h
    cases h
    exact .copy 0 (by decide) rfl hr
  | copy j hj hp hr =>
    rw [← hkept.slotPrefix_eq hj.le, ← hr] at hp
    rw [pollContinue_slotPrefix hp (by rw [hr, hkept.slots]; exact hrd), hr, hkept.slotPrefix_eq (Nat.succ_le_of_lt hj)] at h
    cases h
    split
    case isTrue hmore => exact .copy _ hmore rfl hr
    case isFalse hlast =>
      have hall : j + 1 = Config.recBytes := by omega
      exact .advance (congrArg (fun n => PollPos.recvAdvance (slotPrefix s s.drv.rd n)) hall) hr
  | advance hp hr =>
    unfold Machine.pollContinue at h
    rw [hp] at h
    cases h
    exact .ret rfl (by rw [← hr, ← hkept.params]; rfl)
  | ret hp hr =>
    unfold Machine.pollContinue at h
    rw [hp] at h
    cases h
    exact .returned rfl hr (by rw [← hkept.params]; rfl)
  | returned hp hr hres =>
    unfold Machine.pollContinue at h
    rw [hp] at h
    cases h
    exact .returned hp hr hres

end

theorem ReceiveAt.enqueue {s u : State} (hu : ReceiveAt s u) (r : List Byte) : ReceiveAt s (u.enqueue r) := by
  cases hu with
  | compare hp hr => exact .compare hp hr
  | copy j hj hp hr => exact .copy j hj hp hr
  | advance hp hr => exact .advance hp hr
  | ret hp hr => exact .ret hp hr
  | returned hp hr hres => exact .returned hp hr hres

/-- Along every interleaving with few enough enqueues POLL stands at one of RECEIVE's positions. -/
theorem receiveAt_of_ringRun {s t : State} (hslots : s.drv.slots = s.params.n) (hwr : s.drv.wr < s.params.n)
    (hrd : s.drv.rd < s.params.n) (hunread : s.drv.wr ≠ s.drv.rd) {ms : List RingMove} {u : State} {e : Nat}
    (hlen : ∀ r ∈ enqueuedBy ms, r.length = Config.recBytes)
    (he : e + (enqueuedBy ms).length ≤ s.params.n - ringCount s.params.n s.drv.wr s.drv.rd)
    (hkept : SlotKept s e u) (hu : ReceiveAt s u) (hrun : ringRun ms u = .next t) : ReceiveAt s t := by
  induction ms generalizing u e with
  | nil =>
    cases hrun
    exact hu
  | cons m ms ih =>
    cases m with
    | poll =>
      rw [ringRun] at hrun
      split at hrun
      case h_1 v hv => exact ih hlen he (hkept.pollContinue hu hv) (hu.pollContinue hkept hunread (hslots ▸ hrd) hv) hrun
      all_goals cases hrun
    | enqueue r =>
      rw [enqueuedBy, List.forall_mem_cons] at hlen
      rw [enqueuedBy, List.length_cons] at he
      exact ih hlen.2 (by omega) (hkept.enqueue hwr hrd hunread (by omega) hlen.1) (hu.enqueue r) hrun

/-- Settles O41: the run starts at V2 and, once POLL is idle, has reached the return. -/
theorem receiveWholeUnderInterleaving : Obligations.ReceiveWholeUnderInterleaving := by
  intro s t ms hp _ hslots hwr hrd hunread hlen hfew hrun hidle
  have hstart : SlotKept s 0 s := ⟨rfl, rfl, by rw [Nat.add_zero, Nat.mod_eq_of_lt hwr], fun _ _ => rfl⟩
  have hfew' : 0 + (enqueuedBy ms).length ≤ s.params.n - ringCount s.params.n s.drv.wr s.drv.rd := by omega
  cases receiveAt_of_ringRun hslots hwr hrd hunread hlen hfew' hstart (.compare hp rfl) hrun with
  | returned _ hr hres => exact ⟨hres, hr⟩
  | compare hq | copy _ _ hq | advance hq | ret hq => simp [hq] at hidle

end Sys2Proof.Machine
end

section
/-! SUPPORT. RUN_ENUMERATION with a free identifier (45_enumeration R222 to R228) and durable storage (20_memory R80). -/

namespace Sys2Proof.Machine

/-- The firing where a candidate is free: it is adopted and handed over, between the disarming with E1 and E4 (R225). -/
theorem timerFire_of_firstFree_some {s : State} {p : IdPair} (h : firstFree s.drv.seen = some p) :
    timerFire s = { s with
      ctx := .poll
      drv := { s.drv with selfId := p, enum := false, seen := [], timerArmed := false }
      env := { s.env with handed := s.env.handed ++ [p] }
      hist := s.hist ++ [.persist p] } := by
  simp only [timerFire, enumerationBody, State.setDrv_drv, h]
  rfl

/-- Settles O42: the timer is due, so it fires, and the first free candidate is found (`firstFree_some`). -/
theorem enumerationAdoptsFirstFree : Obligations.EnumerationAdoptsFirstFree := by
  intro s a hctx hready harmed hdue h1 h127 hfree htaken
  have hfires : exec .runEnumeration s = .next (timerFire s.now.2) :=
    exec_enumeration s hctx hready ((State.timerDue_iff s.now.2 s.now.1).2 ⟨hready, harmed, hdue⟩)
  have hsome : firstFree s.now.2.drv.seen = some (idOf a) := firstFree_some s.drv.seen a h1 h127 hfree htaken
  rw [hfires, timerFire_of_firstFree_some hsome, State.now_env, Env.takeTick_handed]
  rfl

/-! ### Durable storage -/

theorem State.settleStore_nil {s : State} (h : s.env.handed = []) : s.settleStore = s := by
  unfold State.settleStore
  rw [h]

theorem State.settleStore_cons {s : State} {p : IdPair} {rest : List IdPair} (h : s.env.handed = p :: rest) :
    s.settleStore = s.setEnv { s.env.takeStore.2 with
      handed := rest, storage := if s.env.takeStore.1 then some p else s.env.storage } := by
  unfold State.settleStore
  rw [h]

theorem Env.takeStore_cons {e : Env} {b : Bool} {bs : List Bool} (h : e.stores = b :: bs) :
    e.takeStore = (b, { e with stores := bs }) := by
  unfold Env.takeStore
  rw [h]

theorem pollContinue_initState {s : State} (hp : s.poll = .initState) : pollContinue s = .next (initStateStep s) := by
  unfold pollContinue
  rw [hp]

theorem initStateStep_selfId (s : State) : (initStateStep s).drv.selfId
    = (if s.env.takeStore.1 then s.env.storage else none).getD s.params.selfIdDefault := rfl

/-- Settles O45: the oldest pair is settled as the script says (`State.settleStore_cons`), and step 7 loads what is durable. -/
theorem storageSettlesInOrder : Obligations.StorageSettlesInOrder := by
  intro s
  refine ⟨fun h => congrArg Host.Outcome.next (State.settleStore_nil h), fun p rest h => ⟨_, rfl, ?_⟩,
    fun hp => ⟨_, pollContinue_initState hp, rfl, s.env.takeStore_storage, s.env.takeStore_handed, ?_, ?_, ?_⟩⟩
  · rw [State.settleStore_cons h]
    refine ⟨by simp [State.setEnv], rfl, ?_, fun b bs hb => ?_⟩
    · show (if s.env.takeStore.1 then some p else s.env.storage) = some p ∨ _ = s.env.storage
      split
      · exact .inl rfl
      · exact .inr rfl
    · rw [Env.takeStore_cons hb]
      exact ⟨rfl, rfl, rfl⟩
  · rw [initStateStep_selfId]
    split
    · exact .inl rfl
    · exact .inr rfl
  · intro bs hb
    rw [initStateStep_selfId, Env.takeStore_cons hb]
    rfl
  · intro bs hb
    rw [initStateStep_selfId, Env.takeStore_cons hb]
    rfl

end Sys2Proof.Machine
end

section
/-! SUPPORT. What each agent may write on a live driver (10_state R37), which errors an operation returns (60_exceptions R244), and
what only grows (10_state R22, R30; 41_bus_transactions R151; 60_exceptions R262). -/

namespace Sys2Proof.Machine

/-! ### Who writes which element -/

/-- Outside INITIALIZE POLL writes the read index, `absent` and the mask alone. -/
theorem MicroStep.drv_outside_init {s t : State} (h : MicroStep s t) (hp : s.poll.inInit = false) :
    t.drv = { s.drv with rd := t.drv.rd, absent := t.drv.absent, irqMask := t.drv.irqMask } := by
  cases h with
  | rests _ h => rw [h]
  | initGoes hp' | initFails hp' => rw [hp] at hp'; cases hp'
  | initAllocates _ _ hp' | initReturns hp' => rw [hp'] at hp; cases hp
  | sendGoes _ _ hdrv _ => rw [hdrv]
  | sendReturns _ _ _ hdrv _ _ _ _ => rw [hdrv]
  | recvEmpty _ _ h | recvStarts _ _ _ h | recvCopies _ _ _ _ h | recvCopied _ _ _ h | recvAdvances _ _ h | recvReturns _ _ h =>
    rw [h]; rfl

/-- A handler run leaves every ring byte outside the write slot alone. -/
theorem irqBody_ringOutside {s t : State} (h : irqBody s = .next t) : RingOutside s t s.drv.wr := by
  rcases irqBody_ring h with ⟨hring, -⟩ | ⟨r, hr, hring, -⟩
  · intro a _
    rw [hring]
  · intro a ha
    rw [hring]
    exact s.enqueue_outside r hr a ha

/-- On a live driver a row that is neither handler's nor the callback's writes nothing of the block. -/
theorem exec_plain_of_ready {i : Instr} {s t : State} (hm : s.drv.mode = .ready) (hirq : i ≠ .irqHandler)
    (htimer : i ≠ .runEnumeration) (h : exec i s = .next t) : PlainFrame s t := by
  rcases exec_next h with ⟨b, c, l, hz, -, -, -, huninit, -⟩ | ⟨hi, -⟩ | ⟨hi, -⟩ | ⟨-, -, hf⟩
  · rw [hm] at huninit
    cases huninit
  · exact absurd hi hirq
  · exact absurd hi htimer
  · exact hf

/-- On a live driver, outside INITIALIZE, the running code's turn in POLL's context writes what POLL may. -/
theorem runTurn_drv {s t : State} (hm : s.drv.mode = .ready) (hc : s.ctx = .poll) (hp : s.poll.inInit = false)
    (h : runTurn s = .next t) : t.drv = { s.drv with rd := t.drv.rd, absent := t.drv.absent, irqMask := t.drv.irqMask } := by
  rcases runTurn_next h with ⟨-, rfl⟩ | ⟨-, i, rest, -, hexec⟩ | ⟨-, -, hmicro⟩
  · rfl
  · have hirq : i ≠ .irqHandler := by
      rintro rfl
      have := (exec_irq_next hexec).1
      rw [State.setProgram_ctx, hc] at this
      cases this
    have htimer : i ≠ .runEnumeration := by
      rintro rfl
      have := (exec_enumeration_next hexec).1
      rw [State.setProgram_ctx, hc] at this
      cases this
    rw [(exec_plain_of_ready (s := s.setProgram rest) hm hirq htimer hexec).drv]
    rfl
  · exact (pollContinue_microStep hmicro).drv_outside_init hp

/-- Settles O49: each agent's frame, and for a step the frame of the agent whose turn it is. -/
theorem soleWriters : Obligations.SoleWriters := by
  intro s t hm
  refine ⟨fun hp h => (pollContinue_microStep h).drv_outside_init hp, fun h => ?_, fun h => (exec_enumeration_frame h).drv,
    fun i hirq htimer h => (exec_plain_of_ready hm hirq htimer h).drv, fun h => ?_, fun h => ?_, fun hc hp h => ?_⟩
  · obtain ⟨-, -, hbody⟩ := exec_irq_next h
    have hf := irqBody_frame hbody
    refine ⟨hf.drv, fun he => ?_, ?_, irqBody_ringOutside (s := s.enterIrq) hbody⟩
    · rcases hf.window with ⟨henum, -⟩ | ⟨henum, -⟩
      · rw [henum]; exact he
      · exact henum
    · rcases hf.seen with hseen | ⟨-, r, hseen⟩
      · exact ⟨[], by rw [hseen]; simp⟩
      · exact ⟨_, hseen⟩
  · cases h
    refine ⟨s.fallingEdge_drv, fun hpend => ?_⟩
    unfold State.fallingEdge
    split
    · rfl
    · exact hpend
  · cases h
    exact s.settleStore_drv
  · rcases step_next h with ⟨hturn, hrun⟩ | ⟨hturn, ⟨-, hexec⟩ | rfl⟩ | ⟨hturn, ⟨-, hexec⟩ | rfl⟩ | ⟨hturn, rfl⟩ | ⟨hturn, rfl⟩
      | ⟨hturn, rfl⟩ <;> simp only [hturn, reduceCtorEq, false_implies, true_implies, true_and, and_true]
    · exact runTurn_drv (s := s.takeTurn.2) hm hc hp hrun
    · obtain ⟨-, -, hbody⟩ := exec_irq_next hexec
      rw [(irqBody_frame hbody).drv]
      rfl
    · rfl
    · rw [(exec_enumeration_frame hexec).drv]
      rfl
    · rfl
    · exact s.takeTurn.2.fallingEdge_drv
    · exact s.takeTurn.2.settleStore_drv

/-! ### Which errors an operation returns -/

/-- The shape check reports shape errors only. -/
theorem isShapeError_of_checkShape {w : WireString} {e : CtbError} (h : checkShape w = .error e) : isShapeError e = true := by
  unfold checkShape at h
  dsimp only at h
  split at h
  · cases h; rfl
  split at h
  · cases h; rfl
  split at h
  · cases h; rfl
  split at h
  · cases h; rfl
  split at h
  · cases h; rfl
  split at h
  · cases h; rfl
  split at h
  · cases h; rfl
  split at h
  · cases h; rfl
  · cases h

theorem decodeText_error {w : WireString} {e : CtbError} (h : decodeText w = .error e) : checkShape w = .error e := by
  unfold decodeText at h
  split at h
  · cases h
    assumption
  · cases h

/-- SEND's first micro-step returns an error only where the shape check does. -/
theorem execSend_sent_error {w : WireString} {s t : State} {e : CtbError} (h : exec (.send w) s = .next t)
    (hres : t.result = some (.sent (.error e))) : checkShape w = .error e := by
  obtain ⟨hc, hp, hrest⟩ := s.whenIdle_next h
  obtain ⟨hm, -⟩ := s.whenReady_next hrest
  cases hw : checkShape w with
  | error e' =>
    rw [execSend_error hc hp hm hw] at h
    cases h
    cases hres
    rfl
  | ok c =>
    rw [execSend_ok hc hp hm hw] at h
    cases h
    cases hres

/-- What a micro-step of POLL that returns leaves as the result. -/
theorem MicroStep.result_of_return {s t : State} (h : MicroStep s t) (hp : s.poll ≠ .idle) (hq : t.poll = .idle) :
    t.result = some (.inited (.error .controllerNotPresent)) ∨ t.result = some (.inited (.ok ()))
      ∨ (∃ r, t.result = some (.sent r) ∧ ∀ e, r = .error e → e = .controllerNotPresent ∨ e = .transmitTimeout)
      ∨ ∃ w, t.result = some (.received w) := by
  cases h with
  | rests hp' => exact absurd hp' hp
  | initGoes _ hq' => rw [hq] at hq'; cases hq'
  | initFails _ _ _ hres => exact .inl hres
  | initAllocates _ _ _ hq' => rw [hq] at hq'; cases hq'
  | initReturns _ h => exact .inr (.inl (by rw [h]; rfl))
  | sendGoes _ hq' => rw [hq] at hq'; cases hq'
  | sendReturns r _ _ _ _ _ hres herr => exact .inr (.inr (.inl ⟨r, hres, herr⟩))
  | recvEmpty _ _ h => exact .inr (.inr (.inr ⟨none, by rw [h]; rfl⟩))
  | recvReturns _ _ h => exact .inr (.inr (.inr ⟨_, by rw [h]; rfl⟩))
  | recvStarts _ _ _ h | recvCopies _ _ _ _ h | recvCopied _ _ _ h | recvAdvances _ _ h => rw [h] at hq; cases hq

/-- Settles O50: DECODE and S1 pass on the shape check's error, and a later return is one of `MicroStep.result_of_return`. -/
theorem errorsByOperation : Obligations.ErrorsByOperation := by
  refine ⟨fun w e h => isShapeError_of_checkShape (decodeText_error h),
    fun w s t e h hres => isShapeError_of_checkShape (execSend_sent_error h hres), fun s t h hp hq => ?_⟩
  rcases (pollContinue_microStep h).result_of_return hp hq with hres | hres | ⟨r, hres, herr⟩ | ⟨w, hres⟩ <;> rw [hres]
  · simp [eq_comm]
  · simp
  · simpa using herr
  · simp

/-! ### What is one-way on a live driver (R22, R30) -/

/-- The mode and INITIALIZE's arguments are as before, and `absent` is set if it was. -/
structure LiveKept (s t : State) : Prop where
  mode : t.drv.mode = s.drv.mode
  given : t.drv.given = s.drv.given
  absent : s.drv.absent = true → t.drv.absent = true

theorem LiveKept.of_drv {s t : State} (h : t.drv = { s.drv with
    ring := t.drv.ring, wr := t.drv.wr, rd := t.drv.rd, selfId := t.drv.selfId, seen := t.drv.seen, enum := t.drv.enum
    irqMask := t.drv.irqMask, irqPend := t.drv.irqPend, timerArmed := t.drv.timerArmed
    timerDeadline := t.drv.timerDeadline }) : LiveKept s t := by
  refine ⟨?_, ?_, ?_⟩ <;> rw [h]
  exact id

theorem exec_liveKept {i : Instr} {s t : State} (hm : s.drv.mode = .ready) (h : exec i s = .next t) : LiveKept s t := by
  by_cases hirq : i = .irqHandler
  · subst hirq
    obtain ⟨-, -, hbody⟩ := exec_irq_next h
    exact .of_drv (by rw [(irqBody_frame hbody).drv]; rfl)
  by_cases htimer : i = .runEnumeration
  · subst htimer
    exact .of_drv (by rw [(exec_enumeration_frame h).drv]; rfl)
  · exact .of_drv (by rw [(exec_plain_of_ready hm hirq htimer h).drv])

theorem MicroStep.liveKept {s t : State} (hp : s.poll.inInit = false) (h : MicroStep s t) : LiveKept s t := by
  have hdrv := h.drv_outside_init hp
  refine ⟨by rw [hdrv], by rw [hdrv], fun ha => ?_⟩
  cases h with
  | initGoes hp' | initFails hp' => rw [hp] at hp'; cases hp'
  | initAllocates _ _ hp' | initReturns hp' => rw [hp'] at hp; cases hp
  | sendGoes _ _ hdrv' => rw [hdrv']; exact ha
  | sendReturns _ _ _ _ habsent => exact habsent ha
  | rests _ h => rw [h]; exact ha
  | recvEmpty _ _ h | recvStarts _ _ _ h | recvCopies _ _ _ _ h | recvCopied _ _ _ h | recvAdvances _ _ h | recvReturns _ _ h =>
    rw [h]; exact ha

theorem step_liveKept {s t : State} (hs : LifeOk s) (hm : s.drv.mode = .ready) (hturn : s.takeTurn.1 ≠ .restart)
    (h : step s = .next t) : LiveKept s t := by
  rcases step_next h with ⟨-, hrun⟩ | ⟨-, ⟨-, hexec⟩ | rfl⟩ | ⟨-, ⟨-, hexec⟩ | rfl⟩ | ⟨-, rfl⟩ | ⟨-, rfl⟩ | ⟨hrestart, -⟩
  · rcases runTurn_next hrun with ⟨-, rfl⟩ | ⟨-, i, rest, -, hexec⟩ | ⟨-, -, hmicro⟩
    · exact ⟨rfl, rfl, id⟩
    · obtain ⟨hmode, hgiven, habsent⟩ := exec_liveKept (s := s.takeTurn.2.setProgram rest) hm hexec
      exact ⟨hmode, hgiven, habsent⟩
    · obtain ⟨hmode, hgiven, habsent⟩ := MicroStep.liveKept (s := s.takeTurn.2) (hs.ready hm).1 (pollContinue_microStep hmicro)
      exact ⟨hmode, hgiven, habsent⟩
  · obtain ⟨hmode, hgiven, habsent⟩ := exec_liveKept (s := s.takeTurn.2.enter .irq) hm hexec
    exact ⟨hmode, hgiven, habsent⟩
  · exact ⟨rfl, rfl, id⟩
  · obtain ⟨hmode, hgiven, habsent⟩ := exec_liveKept (s := s.takeTurn.2.enter .timer) hm hexec
    exact ⟨hmode, hgiven, habsent⟩
  · exact ⟨rfl, rfl, id⟩
  · exact .of_drv (by rw [s.takeTurn.2.fallingEdge_drv]; rfl)
  · exact .of_drv (by rw [s.takeTurn.2.settleStore_drv]; rfl)
  · exact absurd hrestart hturn

/-- Settles O51: on a live driver `cfg` is the arguments given (`State.cfg_ready`), which every agent keeps. -/
theorem absentAndReadyAreOneWay : Obligations.AbsentAndReadyAreOneWay := by
  intro s t hs hm hturn h
  obtain ⟨hmode, hgiven, habsent⟩ := step_liveKept hs hm hturn h
  have hready : t.drv.mode = .ready := hmode.trans hm
  exact ⟨hready, habsent, by rw [t.cfg_ready hready, s.cfg_ready hm, hgiven]⟩

/-! ### The clock, chip-select and the history -/

/-- Settles O52: every kind of move leaves the clock alone or reads it. -/
theorem clockNeverDecreases : Obligations.ClockNeverDecreases := by
  intro s t
  refine step_preserves (P := fun u => s.env.clock ≤ u.env.clock) ?handler ?fires ?initStarts ?plain ?micro ?turn ?program ?enters
    ?now ?edge ?settles ?restarts le_rfl
  case handler => exact fun u t hu _ h => hu.trans (irqBody_frame h).clock
  case fires =>
    intro u hu _
    rw [(timerFire_frame u.now.2).env]
    exact hu.trans (by simpa using u.env.clock_le_takeTick)
  case plain => exact fun u t hu hf => hu.trans_eq hf.clock.symm
  case micro => exact fun u t hu _ h => hu.trans (pollContinue_frame h).clock
  case turn => exact fun u hu => hu.trans_eq u.env.takeTurn_clock.symm
  case now => exact fun u hu => hu.trans (by simpa using u.env.clock_le_takeTick)
  case edge => exact fun u hu => hu.trans_eq (by rw [u.fallingEdge_env])
  case settles => exact fun u hu => hu.trans_eq u.settleStore_clock.symm
  all_goals intros; assumption

/-- Chip-select is deasserted in `t` if it was in `s`, and the history of `t` extends that of `s`. -/
def Extends (s t : State) : Prop := (s.chip.cs = false → t.chip.cs = false) ∧ ∃ evs, t.hist = s.hist ++ evs

theorem Extends.trans {s t u : State} (h : Extends s t) (hu : Extends t u) : Extends s u := by
  obtain ⟨hcs, evs, hhist⟩ := h
  obtain ⟨hcs', evs', hhist'⟩ := hu
  exact ⟨hcs' ∘ hcs, evs ++ evs', by rw [hhist', hhist, List.append_assoc]⟩

/-- A move that leaves the controller and the history alone. -/
theorem Extends.of_eq {s t : State} (hchip : t.chip = s.chip) (hhist : t.hist = s.hist) : Extends s t :=
  ⟨fun h => by rw [hchip, h], [], by rw [hhist, List.append_nil]⟩

theorem timerFire_extends (s : State) : Extends s (timerFire s) := by
  have hf := timerFire_frame s
  refine ⟨fun h => by rw [hf.chip, h], ?_⟩
  rcases hf.adopted with ⟨-, -, h⟩ | ⟨-, -, h⟩
  · exact ⟨[], by rw [h, List.append_nil]⟩
  · exact ⟨_, h⟩

/-- Settles O53: every kind of move extends the state it starts from. -/
theorem chipSelectRestsAndHistoryGrows : Obligations.ChipSelectRestsAndHistoryGrows := by
  intro s t
  refine step_preserves (P := Extends s) ?handler ?fires ?initStarts ?plain ?micro ?turn ?program ?enters ?now ?edge ?settles
    ?restarts (.of_eq rfl rfl)
  case handler => exact fun u t hu _ h => hu.trans ⟨(irqBody_frame h).cs, (irqBody_frame h).hist⟩
  case fires => exact fun u hu _ => hu.trans (timerFire_extends u.now.2)
  case plain => exact fun u t hu hf => hu.trans ⟨hf.cs, hf.hist⟩
  case micro => exact fun u t hu _ h => hu.trans ⟨(pollContinue_frame h).cs, (pollContinue_frame h).hist⟩
  case edge => exact fun u hu => hu.trans (.of_eq u.fallingEdge_chip u.fallingEdge_hist)
  case settles => exact fun u hu => hu.trans (.of_eq u.settleStore_chip u.settleStore_hist)
  case restarts => exact fun u hu => hu.trans ⟨fun _ => rfl, _, rfl⟩
  all_goals intros; assumption

end Sys2Proof.Machine
end

section
/-! SUPPORT. The bus transactions' rows (41_bus_transactions R152 to R161): where each is called, what a read answers and what a
write stores. -/

namespace Sys2Proof.Machine

/-! ### Where each transaction is called (R161) -/

section

variable (s : State) (i : Instr)

/-- Every position of POLL that calls a transaction, with the row, or the two rows, it calls. -/
theorem State.pollCalls_iff : s.pollCalls i = true ↔
    (s.poll = .initReset ∧ i = .chipReset)
    ∨ (s.poll = .initStatus ∧ i = .regRead s.params.chip.regStatus)
    ∨ (∃ a v ws, s.poll = .initWrites ((a, v) :: ws) ∧ i = .regWrite a v)
    ∨ (s.poll = .modeWrite ∧ (i = .modeSet ∨ i = .regWrite s.params.chip.regMode s.params.chip.modeNormal))
    ∨ (∃ t0, s.poll = .modeRead t0 ∧ i = .regRead s.params.chip.regStatus)
    ∨ (∃ r, s.poll = .sendLoad r ∧ i = .txLoad r)
    ∨ (∃ k, s.poll = .sendRequest k ∧
        (i = .txRequest k.prio ∨ i = .regWrite s.params.chip.regTxctrl (s.params.chip.txctrlReq k.prio)))
    ∨ (s.poll = .sendReadback ∧ i = .regRead s.params.chip.regTxctrl)
    ∨ (∃ k t0, s.poll = .sendPoll k t0 ∧ i = .regRead s.params.chip.regTxctrl)
    ∨ (∃ k, s.poll = .sendAbort k ∧ (i = .txAbort ∨ i = .regWrite s.params.chip.regTxctrl s.params.chip.txctrlAbort)) := by
  unfold State.pollCalls
  split <;> simp_all

/-- What the handler's code calls (R200, R192). -/
theorem State.irqCalls_iff : s.irqCalls i = true ↔ s.drv.mode = .ready ∧
    (i = .rxRead ∨ s.drv.absent = false ∧ (i = .txRequest .high
      ∨ i = .regWrite s.params.chip.regTxctrl s.params.chip.txctrlReqHigh ∨ ∃ r, i = .txLoad r ∧ txRecordOk r = true)) := by
  unfold State.irqCalls
  split <;> simp_all

theorem State.calls_iff : s.calls i = true ↔
    (s.ctx = .poll ∧ s.pollCalls i = true) ∨ (s.ctx = .irq ∧ s.irqCalls i = true) := by
  unfold State.calls
  split <;> simp_all

end

section

variable (s : State)

theorem State.calls_chipReset_iff : s.calls .chipReset = true ↔ s.ctx = .poll ∧ s.poll = .initReset := by
  simp [State.calls_iff, State.pollCalls_iff, State.irqCalls_iff]

theorem State.calls_modeSet_iff : s.calls .modeSet = true ↔ s.ctx = .poll ∧ s.poll = .modeWrite := by
  simp [State.calls_iff, State.pollCalls_iff, State.irqCalls_iff]

theorem State.calls_txAbort_iff : s.calls .txAbort = true ↔ s.ctx = .poll ∧ ∃ k, s.poll = .sendAbort k := by
  simp [State.calls_iff, State.pollCalls_iff, State.irqCalls_iff]

theorem State.calls_rxRead_iff : s.calls .rxRead = true ↔ s.ctx = .irq ∧ s.drv.mode = .ready := by
  simp [State.calls_iff, State.pollCalls_iff, State.irqCalls_iff]

theorem Attempt.high_iff (k : Attempt) : Prio.high = k.prio ↔ k = .first := by cases k <;> simp [Attempt.prio]

theorem Attempt.retry_iff (k : Attempt) : Prio.retry = k.prio ↔ k = .second := by cases k <;> simp [Attempt.prio]

theorem State.calls_txRequest_high_iff : s.calls (.txRequest .high) = true ↔
    s.ctx = .poll ∧ s.poll = .sendRequest .first ∨ (s.ctx = .irq ∧ s.drv.mode = .ready) ∧ s.drv.absent = false := by
  simp [State.calls_iff, State.pollCalls_iff, State.irqCalls_iff, Attempt.high_iff, and_assoc]

theorem State.calls_txRequest_retry_iff :
    s.calls (.txRequest .retry) = true ↔ s.ctx = .poll ∧ s.poll = .sendRequest .second := by
  simp [State.calls_iff, State.pollCalls_iff, State.irqCalls_iff, Attempt.retry_iff]

theorem State.calls_txLoad_iff (r : List Byte) : s.calls (.txLoad r) = true ↔ s.ctx = .poll ∧ s.poll = .sendLoad r
    ∨ (s.ctx = .irq ∧ s.drv.mode = .ready) ∧ s.drv.absent = false ∧ 5 ≤ r.length ∧ r.length ≤ 13 := by
  simp [State.calls_iff, State.pollCalls_iff, State.irqCalls_iff, txRecordOk, and_assoc]

theorem State.calls_regRead_iff (a : Byte) : s.calls (.regRead a) = true ↔ s.ctx = .poll ∧
    ((a = s.params.chip.regStatus ∧ (s.poll = .initStatus ∨ ∃ t0, s.poll = .modeRead t0))
      ∨ (a = s.params.chip.regTxctrl ∧ (s.poll = .sendReadback ∨ ∃ k t0, s.poll = .sendPoll k t0))) := by
  simp [State.calls_iff, State.pollCalls_iff, State.irqCalls_iff]
  tauto

/-- POLL's register writes: INITIALIZE's list, MODE_SET's, and those that are a request or the abort. -/
theorem State.pollCalls_regWrite_iff (a v : Byte) : s.pollCalls (.regWrite a v) = true ↔
    (∃ ws, s.poll = .initWrites ((a, v) :: ws))
      ∨ (s.poll = .modeWrite ∧ a = s.params.chip.regMode ∧ v = s.params.chip.modeNormal)
      ∨ (s.poll = .sendRequest .first ∧ a = s.params.chip.regTxctrl ∧ v = s.params.chip.txctrlReqHigh)
      ∨ (s.poll = .sendRequest .second ∧ a = s.params.chip.regTxctrl ∧ v = s.params.chip.txctrlReqRetry)
      ∨ ((∃ k, s.poll = .sendAbort k) ∧ a = s.params.chip.regTxctrl ∧ v = s.params.chip.txctrlAbort) := by
  have hrequest (P : Attempt → Prop) : (∃ k, P k) ↔ P .first ∨ P .second :=
    ⟨fun ⟨k, hk⟩ => by cases k; exacts [.inl hk, .inr hk], fun h => h.elim (⟨_, ·⟩) (⟨_, ·⟩)⟩
  simp [State.pollCalls_iff, hrequest, Attempt.prio, Chip.txctrlReq, or_and_right, or_assoc]

theorem State.calls_regWrite_iff (a v : Byte) : s.calls (.regWrite a v) = true ↔
    (s.ctx = .poll ∧ ((∃ ws, s.poll = .initWrites ((a, v) :: ws))
        ∨ (s.poll = .modeWrite ∧ a = s.params.chip.regMode ∧ v = s.params.chip.modeNormal)
        ∨ (s.poll = .sendRequest .first ∧ a = s.params.chip.regTxctrl ∧ v = s.params.chip.txctrlReqHigh)
        ∨ (s.poll = .sendRequest .second ∧ a = s.params.chip.regTxctrl ∧ v = s.params.chip.txctrlReqRetry)
        ∨ ((∃ k, s.poll = .sendAbort k) ∧ a = s.params.chip.regTxctrl ∧ v = s.params.chip.txctrlAbort))
      ∨ (s.ctx = .irq ∧ s.drv.mode = .ready) ∧ s.drv.absent = false ∧ a = s.params.chip.regTxctrl
        ∧ v = s.params.chip.txctrlReqHigh) := by
  rw [State.calls_iff, State.pollCalls_regWrite_iff]
  simp [State.irqCalls_iff, and_assoc]

end

/-- A row behind the guard on its place is made there and refused elsewhere. -/
theorem made_only_where_called {i : Instr} {s u : State} {P : Prop} (hexec : exec i s = s.whenCalled i (.next u))
    (hiff : s.calls i = true ↔ P) :
    (P → ∃ t, exec i s = .next t) ∧ (¬ P → exec i s = .refused .wrongContext) := by
  rw [← hiff, hexec]
  exact ⟨fun h => ⟨u, State.whenCalled_of_calls h _⟩, fun h => State.whenCalled_refused h _⟩

/-- Settles O19: each row stands behind the guard on its place, which the lemmas above read out row by row. -/
theorem transactionsMadeOnlyWhereCalled : Obligations.TransactionsMadeOnlyWhereCalled := fun s =>
  ⟨made_only_where_called rfl s.calls_chipReset_iff, made_only_where_called rfl s.calls_modeSet_iff,
    made_only_where_called rfl s.calls_txAbort_iff, made_only_where_called rfl s.calls_rxRead_iff,
    made_only_where_called rfl s.calls_txRequest_high_iff, made_only_where_called rfl s.calls_txRequest_retry_iff,
    fun r => made_only_where_called rfl (s.calls_txLoad_iff r), fun a => made_only_where_called rfl (s.calls_regRead_iff a),
    fun a v => made_only_where_called rfl (s.calls_regWrite_iff a v)⟩

/-! ### What a read answers -/

theorem Env.takeByte_cons {e : Env} {b : Byte} {bs : List Byte} (h : e.answers = b :: bs) :
    e.takeByte = (b, { e with answers := bs }) := by
  unfold Env.takeByte
  rw [h]

/-- Where the script has the bytes, they are the answer. -/
theorem Env.takeBytes_append {e : Env} {bs rest : List Byte} (h : e.answers = bs ++ rest) :
    Env.takeBytes bs.length e = (bs, { e with answers := rest }) := by
  induction bs generalizing e with
  | nil =>
    rw [List.nil_append] at h
    subst h
    rfl
  | cons b bs ih =>
    have hhead : e.takeByte = (b, { e with answers := bs ++ rest }) := Env.takeByte_cons h
    have htail := ih (e := { e with answers := bs ++ rest }) rfl
    rw [List.length_cons, Env.takeBytes, hhead, htail]

/-- Settles O20: one transaction, whose answer is the environment's. -/
theorem busReadsReturnTheAnswer : Obligations.BusReadsReturnTheAnswer := by
  intro s
  refine ⟨fun a h => ⟨_, _, State.whenCalled_of_calls h _, rfl, rfl, rfl, rfl, rfl, rfl, rfl, rfl, ?_, ?_, ?_, ?_⟩,
    fun h => ⟨_, _, State.whenCalled_of_calls h _, s.rxRead_length, rfl, rfl, rfl, rfl, rfl, rfl, rfl, rfl, ?_, ?_, ?_, ?_⟩⟩
  · exact s.env.takeByte_clock
  · exact s.env.takeByte_storage
  · exact s.env.takeByte_handed
  · intro x xs hx
    rw [State.regRead_value, State.answer_env, State.regRead_env, Env.takeByte_cons hx]
    exact ⟨rfl, rfl⟩
  · exact Env.takeBytes_clock _ _
  · exact Env.takeBytes_storage _ _
  · exact Env.takeBytes_handed _ _
  · intro x xs hx hlen
    have htake := Env.takeBytes_append hx
    rw [hlen] at htake
    rw [State.answer_env, State.rxRead_env, State.rxRead, State.transaction_read, Config.recBytes, htake]
    exact ⟨rfl, rfl⟩

/-! ### What a write stores -/

/-- Settles O22: the transaction's image, read byte by byte (`Memory.read_write`, `Memory.read_writeAll`). -/
theorem busWritesStoreOnlyTheirBytes : Obligations.BusWritesStoreOnlyTheirBytes := by
  intro s u x
  refine ⟨fun a v h => ?_, fun p h => ?_, fun h => ?_, fun r h => ?_⟩ <;> obtain ⟨-, h⟩ := s.whenCalled_next h <;> cases h
  · exact ⟨Memory.read_write _ _ _ _, rfl⟩
  · exact ⟨Memory.read_write _ _ _ _, rfl⟩
  · exact ⟨Memory.read_write _ _ _ _, rfl⟩
  · refine ⟨?_, rfl⟩
    rw [State.answer_chip, State.txLoad_chip, Memory.read_writeAll]
    simp [byteAt]

end Sys2Proof.Machine
end

section
/-! SUPPORT. The block's own transactions (41_bus_transactions R161): what each move adds to the history, and the writes INITIALIZE
has still to make. -/

namespace Sys2Proof.Machine

/-! ### Moves that add only the block's own transactions -/

/-- `t` extends the history of `s` by events whose transactions are the block's own in `s`. -/
def OwnMove (s t : State) : Prop := ∃ evs, t.hist = s.hist ++ evs ∧ ∀ w r, Event.tx w r ∈ evs → OwnTransaction s w

section

variable {s t : State}

theorem OwnMove.none (h : t.hist = s.hist) : OwnMove s t := ⟨[], by rw [h, List.append_nil], fun _ _ h => by cases h⟩

theorem OwnMove.one {w r : List Byte} (h : t.hist = s.hist ++ [.tx w r]) (hw : OwnTransaction s w) : OwnMove s t := by
  refine ⟨_, h, fun w' r' hmem => ?_⟩
  cases List.mem_singleton.1 hmem
  exact hw

/-- An event that is no transaction. -/
theorem OwnMove.quiet {e : Event} (h : t.hist = s.hist ++ [e]) (he : ∀ w r, e ≠ .tx w r) : OwnMove s t :=
  ⟨_, h, fun w r hmem => absurd (List.mem_singleton.1 hmem).symm (he w r)⟩

theorem OwnMove.of_hist {u : State} (h : OwnMove s t) (hhist : u.hist = t.hist) : OwnMove s u := by
  rw [OwnMove, hhist]
  exact h

theorem OwnMove.trans {u : State} (h : OwnMove s t) (hu : OwnMove t u) (hown : ∀ w, OwnTransaction t w → OwnTransaction s w) :
    OwnMove s u := by
  obtain ⟨evs, hhist, hevs⟩ := h
  obtain ⟨evs', hhist', hevs'⟩ := hu
  refine ⟨evs ++ evs', by rw [hhist', hhist, List.append_assoc], fun w r hmem => ?_⟩
  rcases List.mem_append.1 hmem with hmem | hmem
  · exact hevs w r hmem
  · exact hown w (hevs' w r hmem)

/-- The transactions of a move from a state that differs in nothing the history tells or an own transaction depends on. -/
theorem OwnMove.from_state {u : State} (h : OwnMove t u) (hhist : t.hist = s.hist)
    (hown : ∀ w, OwnTransaction t w → OwnTransaction s w) : OwnMove s u := (OwnMove.none hhist).trans h hown

/-- `cfg` depends on the mode, the arguments and POLL's position alone. -/
theorem State.cfg_eq (hmode : t.drv.mode = s.drv.mode) (hgiven : t.drv.given = s.drv.given) (hpoll : t.poll = s.poll) :
    t.cfg = s.cfg := by
  rw [State.cfg, State.cfg, hmode, hgiven, hpoll]

theorem OwnWrite.of_eq {a v : Byte} (h : OwnWrite s a v) (hparams : t.params = s.params) (hcfg : t.cfg = s.cfg) : OwnWrite t a v := by
  rw [OwnWrite, hparams, hcfg]
  exact h

theorem OwnTransaction.of_eq {w : List Byte} (h : OwnTransaction s w) (hparams : t.params = s.params) (hcfg : t.cfg = s.cfg) :
    OwnTransaction t w := by
  rw [OwnTransaction, hparams]
  exact h.imp id (.imp id (.imp id (.imp id (.imp id fun ⟨a, v, hw, hown⟩ => ⟨a, v, hw, hown.of_eq hparams hcfg⟩))))

/-- The register writes that are requests or the abort. -/
theorem ownWrite_txctrl (s : State) (k : Prio) : OwnWrite s s.params.chip.regTxctrl (s.params.chip.txctrlReq k) := by
  refine .inr (.inr (.inr (.inr ⟨rfl, ?_⟩)))
  cases k
  · exact .inl rfl
  · exact .inr (.inl rfl)

theorem ownWrite_abort (s : State) : OwnWrite s s.params.chip.regTxctrl s.params.chip.txctrlAbort :=
  .inr (.inr (.inr (.inr ⟨rfl, .inr (.inr rfl)⟩)))

theorem ownWrite_mode (s : State) : OwnWrite s s.params.chip.regMode s.params.chip.modeNormal :=
  .inr (.inr (.inr (.inl ⟨rfl, rfl⟩)))

/-! ### The transactions, one by one -/

theorem OwnMove.regWrite {a v : Byte} (h : t.hist = s.hist ++ [writeEvent s.params.chip a v]) (hw : OwnWrite s a v) : OwnMove s t :=
  .one h (.inr (.inr (.inr (.inr (.inr ⟨a, v, rfl, hw⟩)))))

theorem OwnMove.readStatus {v : Byte} (h : t.hist = s.hist ++ [readEvent s.params.chip s.params.chip.regStatus v]) : OwnMove s t :=
  .one h (.inr (.inr (.inr (.inl rfl))))

theorem OwnMove.readTxctrl {v : Byte} (h : t.hist = s.hist ++ [readEvent s.params.chip s.params.chip.regTxctrl v]) : OwnMove s t :=
  .one h (.inr (.inr (.inr (.inr (.inl rfl)))))

theorem OwnMove.load {r : List Byte} (h : t.hist = s.hist ++ [loadEvent s.params.chip r]) : OwnMove s t :=
  .one h (.inr (.inr (.inl ⟨r, rfl⟩)))

theorem OwnMove.reset (h : t.hist = s.hist ++ [.tx [s.params.chip.cmdReset] []]) : OwnMove s t := .one h (.inl rfl)

theorem OwnMove.rxRead {r : List Byte} (h : t.hist = s.hist ++ [.tx [s.params.chip.cmdRxRead] r]) : OwnMove s t :=
  .one h (.inr (.inl rfl))

/-- TX_FIRE is a load and a request, or nothing (43_send R192). -/
theorem txFire_ownMove (s : State) (r : List Byte) : OwnMove s (s.txFire r) := by
  cases h : s.drv.absent with
  | true => exact .none (by rw [State.txFire_absent s r h])
  | false =>
    rw [State.txFire_present s r h]
    have hload : OwnMove s (s.txLoad r) := .load rfl
    exact hload.trans (.regWrite rfl (ownWrite_txctrl (s.txLoad r) .high)) fun _ hw => hw.of_eq rfl rfl

end

/-! ### A micro-step of POLL -/

/-- INITIALIZE's remaining writes come from its status check, or are what is left after one of them. -/
theorem poll_initWrites_of_pollContinue {s t : State} {ws : List (Byte × Byte)} (h : pollContinue s = .next t)
    (hq : t.poll = .initWrites ws) :
    t.drv = s.drv ∧ ((s.poll = .initStatus ∧ ws = s.initWriteList) ∨ ∃ w, s.poll = .initWrites (w :: ws)) := by
  have hinit : s.poll.inInit = true ∧ t.drv = s.drv := by
    cases pollContinue_microStep h with
    | initGoes hp _ _ hdrv => exact ⟨hp, hdrv⟩
    | rests hp h => rw [h, hp] at hq; cases hq
    | initFails _ hq' | initAllocates _ _ _ hq' | sendReturns _ _ hq' => rw [hq] at hq'; cases hq'
    | sendGoes _ hq' => rw [hq] at hq'; cases hq'
    | initReturns _ h | recvEmpty _ _ h | recvStarts _ _ _ h | recvCopies _ _ _ _ h | recvCopied _ _ _ h | recvAdvances _ _ h
    | recvReturns _ _ h => rw [h] at hq; cases hq
  refine ⟨hinit.2, ?_⟩
  unfold pollContinue at h
  cases hp : s.poll <;> rw [hp] at h hinit <;> try cases hinit.1
  all_goals cases h
  case initStatus =>
    unfold initStatusStep at hq
    dsimp only at hq
    split at hq
    · cases hq
    · cases hq
      exact .inl ⟨rfl, rfl⟩
  case initWrites ws' =>
    cases ws' with
    | nil => cases hq
    | cons w rest =>
      cases hq
      exact .inr ⟨w, rfl⟩
  case modeRead =>
    unfold modeReadStep at hq
    dsimp only at hq
    split at hq <;> cases hq
  case modeTime =>
    unfold modeTimeStep at hq
    split at hq <;> cases hq
  all_goals cases hq

/-- The writes of INITIALIZE's steps 3 to 5 are the block's own. -/
theorem ownWrite_of_mem_initWriteList {s : State} {a v : Byte} (h : (a, v) ∈ s.initWriteList) : OwnWrite s a v := by
  rw [State.initWriteList, List.mem_append, List.mem_append, List.mem_singleton] at h
  rcases h with (h | h) | h
  · unfold State.bitTiming at h
    split at h
    · cases h
    case h_2 c hc =>
      cases hl : s.params.oscTable.lookup c.oscillatorHz with
      | none => rw [hl] at h; cases h
      | some ws => rw [hl] at h; exact .inl ⟨c, ws, hc, hl, h⟩
  · exact .inr (.inl h)
  · cases h
    exact .inr (.inr (.inl ⟨rfl, rfl⟩))

theorem pollContinue_writesOk {s t : State} (hs : WritesOk s) (h : pollContinue s = .next t) : WritesOk t := by
  intro ws hq a v hmem
  obtain ⟨hdrv, hfrom⟩ := poll_initWrites_of_pollContinue h hq
  have hcfg : t.cfg = s.cfg := by
    have hp : s.poll.inInit = true := by rcases hfrom with ⟨hp, -⟩ | ⟨w, hp⟩ <;> rw [hp] <;> rfl
    rw [t.cfg_inInit (by rw [hq]; rfl), s.cfg_inInit hp, hdrv]
  have hown : OwnWrite s a v := by
    rcases hfrom with ⟨-, rfl⟩ | ⟨w, hp⟩
    · exact ownWrite_of_mem_initWriteList hmem
    · exact hs _ hp a v (List.mem_cons_of_mem _ hmem)
  exact hown.of_eq (pollContinue_frame h).params hcfg

/-- S6b's readback, with the log line of absence where it is found (R185). -/
theorem sendReadbackStep_ownMove (s : State) : OwnMove s (sendReadbackStep s) := by
  unfold sendReadbackStep
  dsimp only
  split
  · have hread : OwnMove s (s.regRead s.params.chip.regTxctrl).2 := .readTxctrl rfl
    refine hread.trans ?_ fun _ hw => hw.of_eq rfl rfl
    cases h : s.drv.absent with
    | true => exact .none (by simp [State.raiseSend, State.latchAbsent_hist, h])
    | false => exact .quiet (e := .log .controllerNotPresent) (by simp [State.raiseSend, State.latchAbsent_hist, h]) (by simp)
  · exact .readTxctrl rfl

theorem pollContinue_ownMove {s t : State} (hs : WritesOk s) (h : pollContinue s = .next t) : OwnMove s t := by
  unfold pollContinue at h
  cases hp : s.poll <;> rw [hp] at h <;> dsimp only at h
  case recvCopy =>
    unfold recvCopyStep at h
    split at h
    · cases h
      exact .none rfl
    · cases h
  all_goals cases h
  case initReset => exact .reset rfl
  case initStatus =>
    unfold initStatusStep
    dsimp only
    split <;> exact .readStatus rfl
  case initWrites ws =>
    cases ws with
    | nil => exact .none rfl
    | cons w rest => exact .regWrite rfl (hs _ hp _ _ List.mem_cons_self)
  case modeWrite => exact .regWrite rfl (ownWrite_mode s)
  case modeRead => exact .readStatus rfl
  case modeTime =>
    unfold modeTimeStep
    split <;> exact .none rfl
  case sendAbsent =>
    unfold sendAbsentStep
    split <;> exact .none rfl
  case sendLoad => exact .load rfl
  case sendRequest k => exact .regWrite rfl (ownWrite_txctrl s k.prio)
  case sendReadback => exact sendReadbackStep_ownMove s
  case sendPoll =>
    unfold sendPollStep
    dsimp only
    split <;> exact .readTxctrl rfl
  case sendAbort => exact .regWrite rfl (ownWrite_abort s)
  case recvCompare =>
    unfold recvCompareStep
    split <;> exact .none rfl
  all_goals exact .none rfl

/-! ### The rows and the handlers -/

/-- The handler reads the record and at most fires once; an enqueue, a pair collected and the timer add nothing. -/
theorem irqBody_ownMove {s t : State} (h : irqBody s = .next t) : OwnMove s t := by
  have hread : OwnMove s s.rxRead.2 := .rxRead s.rxRead_hist
  have hcfg : s.cfg = s.rxRead.2.cfg := (State.cfg_eq (by rw [State.rxRead_drv]) (by rw [State.rxRead_drv]) s.rxRead_poll).symm
  have hcases := irqBody_cases h
  refine hread.trans ?_ fun _ hw => hw.of_eq s.rxRead_params.symm hcfg
  generalize s.rxRead = read at hcases ⊢
  obtain ⟨r, u⟩ := read
  rcases hcases with ⟨-, rfl⟩ | ⟨-, -, rfl⟩ | ⟨-, -, -, ⟨-, rfl⟩ | ⟨-, rfl⟩⟩
  · exact (txFire_ownMove u _).of_hist rfl
  · refine .none ?_
    unfold State.pushSeen
    split <;> rfl
  · have hfire : OwnMove u ((u.enqueue r).txFire (collisionRec u.params.chip u.drv.selfId)) :=
      (txFire_ownMove (u.enqueue r) _).from_state rfl fun _ hw => hw.of_eq rfl rfl
    exact hfire.of_hist rfl
  · exact .none rfl

theorem timerFire_ownMove (s : State) : OwnMove s (timerFire s) := by
  rcases (timerFire_frame s).adopted with ⟨-, -, h⟩ | ⟨-, -, h⟩
  · exact .none h
  · exact .quiet h (by simp)

/-- A register write made where the block's code calls it is the block's own. -/
theorem ownWrite_of_calls {s : State} (hs : WritesOk s) {a v : Byte} (h : s.calls (.regWrite a v) = true) : OwnWrite s a v := by
  rcases (s.calls_regWrite_iff a v).1 h with
    ⟨-, ⟨ws, hp⟩ | ⟨-, rfl, rfl⟩ | ⟨-, rfl, rfl⟩ | ⟨-, rfl, rfl⟩ | ⟨-, rfl, rfl⟩⟩ | ⟨-, -, rfl, rfl⟩
  · exact hs _ hp a v List.mem_cons_self
  · exact ownWrite_mode s
  · exact ownWrite_txctrl s .high
  · exact ownWrite_txctrl s .retry
  · exact ownWrite_abort s
  · exact ownWrite_txctrl s .high

/-- A register read made where the block's code calls it is of one of its two registers. -/
theorem ownMove_regRead_of_calls {s : State} {a : Byte} (h : s.calls (.regRead a) = true) : OwnMove s (s.regRead a).2 := by
  rcases (s.calls_regRead_iff a).1 h with ⟨-, ⟨rfl, -⟩ | ⟨rfl, -⟩⟩
  · exact .readStatus rfl
  · exact .readTxctrl rfl

/-- An operation of POLL that returns at once adds nothing. -/
theorem whenIdle_ret_ownMove {s t : State} {v : Ret} (h : s.whenIdle (.next (s.ret v)) = .next t) : OwnMove s t := by
  obtain ⟨-, -, h⟩ := s.whenIdle_next h
  cases h
  exact .none rfl

theorem answerOpcode_ownMove {s t : State} {opcode : Byte} {payload : List Byte} (h : answerOpcode opcode payload s = .next t) :
    OwnMove s t := by
  obtain ⟨-, -, h⟩ := s.whenIdle_next h
  split at h
  · cases h
    exact .none rfl
  · cases h

theorem exec_ownMove {i : Instr} {s t : State} (hs : WritesOk s) (h : exec i s = .next t) : OwnMove s t := by
  cases i with
  | encode =>
    obtain ⟨-, -, h⟩ := s.whenIdle_next h
    split at h <;> cases h
    exact .none rfl
  | initDriver =>
    obtain ⟨-, -, h⟩ := s.whenIdle_next h
    split at h
    · cases h
    · split at h <;> cases h
      exact .none rfl
  | send w =>
    obtain ⟨-, -, h⟩ := s.whenIdle_next h
    obtain ⟨-, h⟩ := s.whenReady_next h
    split at h <;> cases h <;> exact .none rfl
  | receive | available =>
    obtain ⟨-, -, h⟩ := s.whenIdle_next h
    obtain ⟨-, h⟩ := s.whenReady_next h
    cases h
    exact .none rfl
  | irqHandler => exact irqBody_ownMove (s := s.enterIrq) (exec_irq_next h).2.2
  | runEnumeration =>
    obtain ⟨-, -, -, rfl⟩ := exec_enumeration_next h
    exact timerFire_ownMove s.now.2
  | txFire r =>
    obtain ⟨-, h⟩ := s.whenIn_next h
    obtain ⟨-, h⟩ := s.whenReady_next h
    split at h
    · cases h
      exact txFire_ownMove s r
    · cases h
  | ownId | collisionRtr =>
    obtain ⟨-, h⟩ := s.whenIn_next h
    obtain ⟨-, h⟩ := s.whenReady_next h
    cases h
    exact .none rfl
  | regRead a =>
    obtain ⟨hc, h⟩ := s.whenCalled_next h
    cases h
    exact ownMove_regRead_of_calls hc
  | regWrite a v =>
    obtain ⟨hc, h⟩ := s.whenCalled_next h
    cases h
    exact .regWrite rfl (ownWrite_of_calls hs hc)
  | chipReset =>
    obtain ⟨-, h⟩ := s.whenCalled_next h
    cases h
    exact .reset rfl
  | rxRead =>
    obtain ⟨-, h⟩ := s.whenCalled_next h
    cases h
    exact .rxRead s.rxRead_hist
  | txLoad r =>
    obtain ⟨-, h⟩ := s.whenCalled_next h
    cases h
    exact .load rfl
  | txRequest k =>
    obtain ⟨-, h⟩ := s.whenCalled_next h
    cases h
    exact .regWrite rfl (ownWrite_txctrl s k)
  | txAbort =>
    obtain ⟨-, h⟩ := s.whenCalled_next h
    cases h
    exact .regWrite rfl (ownWrite_abort s)
  | modeSet =>
    obtain ⟨-, h⟩ := s.whenCalled_next h
    cases h
    exact .regWrite rfl (ownWrite_mode s)
  | decode | wireSN | wireSR | wireXN | wireXR => exact whenIdle_ret_ownMove h
  | _ => exact answerOpcode_ownMove h

/-! ### The invariant on INITIALIZE's remaining writes -/

/-- A move that leaves the parameters, the mode, the arguments and POLL's position alone. -/
theorem WritesOk.of_eq {s t : State} (hs : WritesOk s) (hparams : t.params = s.params) (hmode : t.drv.mode = s.drv.mode)
    (hgiven : t.drv.given = s.drv.given) (hpoll : t.poll = s.poll) : WritesOk t := by
  exact fun ws hq a v hmem => (hs ws (hpoll ▸ hq) a v hmem).of_eq hparams (State.cfg_eq hmode hgiven hpoll)

/-- A position that is none of INITIALIZE's register writes. -/
theorem WritesOk.of_poll {t : State} (h : ∀ ws, t.poll ≠ .initWrites ws) : WritesOk t := fun ws hq => absurd hq (h ws)

theorem WritesOk.plain {s t : State} (hs : WritesOk s) (hf : PlainFrame s t) : WritesOk t := by
  rcases hf.poll with hp | ⟨-, hq⟩ | ⟨-, hq | ⟨-, ⟨c, hq⟩ | hq⟩⟩
  · exact hs.of_eq hf.params (by rw [hf.drv]) (by rw [hf.drv]) hp
  all_goals exact .of_poll (by simp [hq])

theorem exec_writesOk {i : Instr} {s t : State} (hs : WritesOk s) (h : exec i s = .next t) : WritesOk t := by
  rcases exec_next h with ⟨b, c, l, hz, -, -, -, -, -, rfl⟩ | ⟨-, -, -, hbody⟩ | ⟨-, -, -, -, rfl⟩ | ⟨-, -, hf⟩
  · exact .of_poll (by simp)
  · have hf := irqBody_frame hbody
    exact hs.of_eq hf.params (by rw [hf.drv]; rfl) (by rw [hf.drv]; rfl) hf.poll
  · have hf := timerFire_frame s.now.2
    exact hs.of_eq hf.params (by rw [hf.drv]; rfl) (by rw [hf.drv]; rfl) hf.poll
  · exact hs.plain hf

/-! ### A step -/

theorem step_own {s t : State} (hs : WritesOk s) (h : step s = .next t) : WritesOk t ∧ OwnMove s t := by
  have hturn : WritesOk s.takeTurn.2 := hs.of_eq rfl rfl rfl rfl
  rcases step_next h with ⟨-, hrun⟩ | ⟨-, ⟨-, hexec⟩ | rfl⟩ | ⟨-, ⟨-, hexec⟩ | rfl⟩ | ⟨-, rfl⟩ | ⟨-, rfl⟩ | ⟨-, rfl⟩
  · rcases runTurn_next hrun with ⟨-, rfl⟩ | ⟨-, i, rest, -, hexec⟩ | ⟨-, -, hmicro⟩
    · exact ⟨hturn, .none rfl⟩
    · have hfetched : WritesOk (s.takeTurn.2.setProgram rest) := hs.of_eq rfl rfl rfl rfl
      exact ⟨exec_writesOk hfetched hexec, (exec_ownMove hfetched hexec).from_state rfl fun _ hw => hw.of_eq rfl rfl⟩
    · exact ⟨pollContinue_writesOk hturn hmicro, (pollContinue_ownMove hturn hmicro).from_state rfl fun _ hw => hw.of_eq rfl rfl⟩
  · have hentered : WritesOk (s.takeTurn.2.enter .irq) := hs.of_eq rfl rfl rfl rfl
    exact ⟨exec_writesOk hentered hexec, (exec_ownMove hentered hexec).from_state rfl fun _ hw => hw.of_eq rfl rfl⟩
  · exact ⟨hturn, .none rfl⟩
  · have hentered : WritesOk (s.takeTurn.2.enter .timer) := hs.of_eq rfl rfl rfl rfl
    exact ⟨exec_writesOk hentered hexec, (exec_ownMove hentered hexec).from_state rfl fun _ hw => hw.of_eq rfl rfl⟩
  · exact ⟨hs.of_eq rfl rfl rfl rfl, .none rfl⟩
  · refine ⟨hturn.of_eq (State.fallingEdge_params _) ?_ ?_ (State.fallingEdge_poll _), .none (State.fallingEdge_hist _)⟩ <;>
      rw [State.fallingEdge_drv]
  · exact ⟨hturn.of_eq (State.settleStore_params _) (by rw [State.settleStore_drv]) (by rw [State.settleStore_drv])
      (State.settleStore_poll _), .none (State.settleStore_hist _)⟩
  · exact ⟨.of_poll (by simp [State.restart]), .quiet (e := .restart) rfl (by simp)⟩

/-- Settles O24: steps, micro-steps and rows each keep the premise and add own transactions; the callback's only event is a
persist. -/
theorem onlyOwnTransactions : Obligations.OnlyOwnTransactions := by
  constructor
  · rintro s t hs (h | h | ⟨i, h⟩)
    · exact step_own hs h
    · exact ⟨pollContinue_writesOk hs h, pollContinue_ownMove hs h⟩
    · exact ⟨exec_writesOk hs h, exec_ownMove hs h⟩
  · intro s t h
    rcases (exec_enumeration_frame h).adopted with ⟨-, -, hhist⟩ | ⟨-, -, hhist⟩
    · exact ⟨[], by rw [hhist]; simp, by simp⟩
    · exact ⟨_, hhist, by simp⟩

end Sys2Proof.Machine
end

section
/-! SUPPORT. INITIALIZE and MODE_SET run by POLL alone (42_initialize R170, 41_bus_transactions R159): what has happened since the
call at each of POLL's positions, and the outcomes this leaves. -/

namespace Sys2Proof.Machine

/-! ### The calls -/

/-- MODE_SET called at INITIALIZE's step 6. -/
theorem exec_modeSet {s : State} (hc : s.ctx = .poll) (hp : s.poll = .modeWrite) : exec .modeSet s = .next (modeWriteStep s) :=
  State.whenCalled_of_calls (s.calls_modeSet_iff.2 ⟨hc, hp⟩) _

/-- INITIALIZE called where both `require` lines are met (R172). -/
theorem exec_initDriver {s : State} {b c l : BitVec 32} {hz : Nat} {ws : List (Byte × Byte)} (hc : s.ctx = .poll) (hp : s.poll = .idle)
    (hm : s.drv.mode = .uninit) (hl : s.params.oscTable.lookup hz = some ws) :
    exec (.initDriver b c l hz) s = .next ((s.setDrv { s.drv with given := some ⟨b, c, l, hz⟩ }).start .initReset) := by
  refine (State.whenIdle_idle hc hp _).trans ((if_neg (Mode.eq_uninit_iff.1 hm)).trans (if_neg ?_))
  rw [hl]
  exact Bool.false_ne_true

theorem modeRun_not_inMode {u : State} (hp : u.poll.inMode = false) (k : Nat) : modeRun k u = .next u := by
  cases k with
  | zero => rfl
  | succ k => exact if_neg (Bool.eq_false_iff.1 hp)

theorem modeRun_succ {u v : State} (hp : u.poll.inMode = true) (hv : pollContinue u = .next v) (k : Nat) :
    modeRun (k + 1) u = modeRun k v := by
  rw [modeRun, if_pos hp, hv]

/-- A property under which POLL goes on inside MODE_SET, and which its micro-step then keeps, holds wherever MODE_SET's run ends. -/
theorem modeRun_preserves {P : State → Prop}
    (hstep : ∀ u, P u → u.poll.inMode = true → ∃ v, pollContinue u = .next v ∧ P v) {k : Nat} {u t : State} (hu : P u)
    (ht : modeRun k u = .next t) : P t := by
  induction k generalizing u with
  | zero =>
    cases ht
    exact hu
  | succ k ih =>
    cases hp : u.poll.inMode with
    | false =>
      rw [modeRun_not_inMode hp] at ht
      cases ht
      exact hu
    | true =>
      obtain ⟨v, hv, hPv⟩ := hstep u hu hp
      rw [modeRun_succ hp hv] at ht
      exact ih hPv ht

theorem modeSetRun_of_exec {s u : State} (h : exec .modeSet s = .next u) (k : Nat) : modeSetRun k s = modeRun k u := by
  rw [modeSetRun, h]

/-! ### What has happened since the call -/

/-- In `u`, compared with the state `s` of the call: the block's state is `d`, the controller's record is the given one, the events
`evs` have been added, and the clock is no earlier. -/
structure InitSince (s : State) (d : Driver) (regs txBuf : Memory) (evs : List Event) (u : State) : Prop where
  params : u.params = s.params
  ctx : u.ctx = s.ctx
  program : u.program = s.program
  storage : u.env.storage = s.env.storage
  handed : u.env.handed = s.env.handed
  drv : u.drv = d
  chip : u.chip = ⟨false, regs, txBuf⟩
  hist : u.hist = s.hist ++ evs
  clock : s.env.clock ≤ u.env.clock

namespace InitSince

variable {s u : State} {d : Driver} {regs txBuf : Memory} {evs : List Event}

theorem goto (h : InitSince s d regs txBuf evs u) (p : PollPos) : InitSince s d regs txBuf evs (u.goto p) :=
  ⟨h.params, h.ctx, h.program, h.storage, h.handed, h.drv, h.chip, h.hist, h.clock⟩

theorem ret (h : InitSince s d regs txBuf evs u) (v : Ret) : InitSince s d regs txBuf evs (u.ret v) :=
  ⟨h.params, h.ctx, h.program, h.storage, h.handed, h.drv, h.chip, h.hist, h.clock⟩

theorem now (h : InitSince s d regs txBuf evs u) : InitSince s d regs txBuf evs u.now.2 :=
  ⟨h.params, h.ctx, h.program, by simpa using h.storage, by simpa using h.handed, h.drv, h.chip, h.hist,
    by simpa using h.clock.trans u.env.clock_le_takeTick⟩

theorem regRead (h : InitSince s d regs txBuf evs u) (a : Byte) :
    InitSince s d regs txBuf (evs ++ [readEvent s.params.chip a u.env.takeByte.1]) (u.regRead a).2 :=
  ⟨h.params, h.ctx, h.program, by simpa using h.storage, by simpa using h.handed, h.drv, by simp [h.chip],
    by simp [h.hist, h.params], by simpa using h.clock⟩

theorem regWrite (h : InitSince s d regs txBuf evs u) (a v : Byte) :
    InitSince s d (Memory.write regs a.toNat v) txBuf (evs ++ [writeEvent s.params.chip a v]) (u.regWrite a v) :=
  ⟨h.params, h.ctx, h.program, h.storage, h.handed, h.drv, by simp [h.chip], by simp [h.hist, h.params], h.clock⟩

end InitSince

/-! ### MODE_SET -/

/-- POLL's positions in MODE_SET from its register write on, and where it ends: what has happened since the call in `s`, the events
before the polls being `evs`. -/
inductive ModeAt (s : State) (regs txBuf : Memory) (evs : List Event) (u : State) : Prop
  | clock (hp : u.poll = .modeClock) (hres : u.result = s.result) (h : InitSince s s.drv regs txBuf evs u)
  | read {t0 : Nat} {polls : List Event} (hp : u.poll = .modeRead t0) (hpolls : ModePolls s.params.chip polls)
      (ht0 : s.env.clock ≤ t0) (hres : u.result = s.result) (h : InitSince s s.drv regs txBuf (evs ++ polls) u)
  | time {t0 : Nat} {polls : List Event} (hp : u.poll = .modeTime t0) (hpolls : ModePolls s.params.chip polls)
      (hne : polls ≠ []) (ht0 : s.env.clock ≤ t0) (hres : u.result = s.result)
      (h : InitSince s s.drv regs txBuf (evs ++ polls) u)
  | ok {polls : List Event} (v : Byte) (hp : u.poll = .initState) (hpolls : ModePolls s.params.chip polls)
      (hv : v &&& s.params.chip.modeStatMask = s.params.chip.modeStatNormal) (hres : u.result = s.result)
      (h : InitSince s s.drv regs txBuf (evs ++ polls ++ [readEvent s.params.chip s.params.chip.regStatus v]) u)
  | timeout {polls : List Event} (hp : u.poll = .idle) (hpolls : ModePolls s.params.chip polls) (hne : polls ≠ [])
      (hres : u.result = some (.inited (.error .controllerNotPresent)))
      (hlate : s.env.clock + s.params.tModeMs ≤ u.env.clock) (h : InitSince s s.drv regs txBuf (evs ++ polls) u)

theorem ModePolls.concat {p : Chip} {polls : List Event} {v : Byte} (h : ModePolls p polls)
    (hv : v &&& p.modeStatMask ≠ p.modeStatNormal) : ModePolls p (polls ++ [readEvent p p.regStatus v]) := by
  intro e he
  rcases List.mem_append.1 he with he | he
  · exact h e he
  · exact ⟨v, List.mem_singleton.1 he, hv⟩

section

variable {s u : State} {regs txBuf : Memory} {evs : List Event}

/-- One poll: the expected bits end MODE_SET, others are one poll more. -/
theorem modeReadStep_modeAt {t0 : Nat} {polls : List Event} (hpolls : ModePolls s.params.chip polls) (ht0 : s.env.clock ≤ t0)
    (hres : u.result = s.result) (h : InitSince s s.drv regs txBuf (evs ++ polls) u) :
    ModeAt s regs txBuf evs (modeReadStep t0 u) := by
  have hread := h.regRead u.params.chip.regStatus
  unfold modeReadStep
  dsimp only
  rw [h.params] at hread ⊢
  split
  case isTrue hv => exact .ok _ rfl hpolls hv hres (hread.goto _)
  case isFalse hv =>
    rw [List.append_assoc] at hread
    exact .time rfl (hpolls.concat hv) (by simp) ht0 hres (hread.goto _)

/-- The time test: a timeout has taken `T_MODE_MS`. -/
theorem modeTimeStep_modeAt {t0 : Nat} {polls : List Event} (hpolls : ModePolls s.params.chip polls) (hne : polls ≠ [])
    (ht0 : s.env.clock ≤ t0) (hres : u.result = s.result) (h : InitSince s s.drv regs txBuf (evs ++ polls) u) :
    ModeAt s regs txBuf evs (modeTimeStep t0 u) := by
  unfold modeTimeStep
  split
  case isTrue hlate =>
    have hclock := h.now.clock
    refine .timeout rfl hpolls hne rfl ?_ (h.now.ret _)
    simp only [State.raiseInit, State.ret_env, State.now_env, Env.takeTick_clock, State.now_value, h.params] at hlate hclock ⊢
    omega
  case isFalse => exact .read rfl hpolls ht0 hres (h.now.goto _)

/-- POLL's micro-step leads from each of MODE_SET's positions to the next one, or to its end. -/
theorem modeAt_pollContinue (hu : ModeAt s regs txBuf evs u) (hin : u.poll.inMode = true) :
    ∃ v, pollContinue u = .next v ∧ ModeAt s regs txBuf evs v := by
  unfold pollContinue
  cases hu with
  | clock hp hres h =>
    rw [hp]
    have ht0 := h.now.clock
    rw [State.now_env, Env.takeTick_clock] at ht0
    exact ⟨_, rfl, .read rfl (List.forall_mem_nil _) ht0 hres (by rw [List.append_nil]; exact h.now.goto _)⟩
  | read hp hpolls ht0 hres h =>
    rw [hp]
    exact ⟨_, rfl, modeReadStep_modeAt hpolls ht0 hres h⟩
  | time hp hpolls hne ht0 hres h =>
    rw [hp]
    exact ⟨_, rfl, modeTimeStep_modeAt hpolls hne ht0 hres h⟩
  | ok _ hp | timeout hp => rw [hp] at hin; cases hin

end

/-- Settles O23: MODE_SET's run ends at `ModeAt`'s two ends. -/
theorem modeSetOutcomes : Obligations.ModeSetOutcomes := by
  intro s hc hp
  refine ⟨exec_modeSet hc hp, fun k t hrun hout => ?_⟩
  rw [modeSetRun_of_exec (exec_modeSet hc hp)] at hrun
  have hstart : ModeAt s (Memory.write s.chip.regs s.params.chip.regMode.toNat s.params.chip.modeNormal) s.chip.txBuf
      [writeEvent s.params.chip s.params.chip.regMode s.params.chip.modeNormal] (modeWriteStep s) :=
    .clock rfl rfl ⟨rfl, rfl, rfl, rfl, rfl, rfl, rfl, rfl, le_rfl⟩
  cases modeRun_preserves (fun _ => modeAt_pollContinue) hstart hrun with
  | ok v hq hpolls hv hres h =>
    exact ⟨h.chip, h.params, h.ctx, h.program, h.storage, h.handed, h.drv, _, hpolls, .inl ⟨v, hv, hq, hres, by simp [h.hist]⟩⟩
  | timeout hq hpolls hne hres hlate h =>
    have hcfg (hm : s.drv.mode = .uninit) : t.cfg = none := t.cfg_unset (by rw [h.drv, hm]) (by rw [hq]; rfl)
    exact ⟨h.chip, h.params, h.ctx, h.program, h.storage, h.handed, h.drv, _, hpolls, .inr ⟨hne, hq, hcfg, hres, hlate, by simp [h.hist]⟩⟩
  | clock hq | read hq | time hq => rw [hq] at hout; cases hout

/-! ### INITIALIZE -/

/-- The events of steps 1 and 2, the status read being `v`. -/
def initOpening (p : Chip) (v : Byte) : List Event := [.tx [p.cmdReset] [], readEvent p p.regStatus v]

/-- The events of INITIALIZE up to MODE_SET's write, for the register writes `list` of steps 3 to 5. -/
def initEvents (p : Chip) (v : Byte) (list : List (Byte × Byte)) : List Event :=
  initOpening p v ++ writeEvents p list ++ [writeEvent p p.regMode p.modeNormal]

/-- The registers after those writes. -/
def initRegs (p : Chip) (list : List (Byte × Byte)) : Memory := writtenRegs [] (list ++ [(p.regMode, p.modeNormal)])

theorem writtenRegs_concat (m : Memory) (ws : List (Byte × Byte)) (a v : Byte) :
    writtenRegs m (ws ++ [(a, v)]) = Memory.write (writtenRegs m ws) a.toNat v := by
  simp [writtenRegs]

theorem writeEvents_concat (p : Chip) (ws : List (Byte × Byte)) (a v : Byte) :
    writeEvents p (ws ++ [(a, v)]) = writeEvents p ws ++ [writeEvent p a v] := by
  simp [writeEvents]

/-- The register writes of steps 3 to 5, for arguments whose oscillator is in the table. -/
theorem initWriteList_eq {u : State} {c : Cfg} {ws : List (Byte × Byte)} (hp : u.poll.inInit = true) (hg : u.drv.given = some c)
    (hl : u.params.oscTable.lookup c.oscillatorHz = some ws) :
    u.initWriteList = ws ++ u.params.chip.acceptAll ++ [(u.params.chip.regInte, u.params.chip.inteRx)] := by
  rw [State.initWriteList, State.bitTiming, u.cfg_inInit hp, hg]
  simp only [hl, Option.getD_some]

/-- The driver after step 8. -/
def Driver.registered (d : Driver) : Driver := { d with irqEnabled := true, mode := .ready }

/-- INITIALIZE begun in `s`, with the register writes `list` of steps 3 to 5: POLL's positions in it and its three returns, each
with what has happened since. -/
inductive InitAt (s : State) (list : List (Byte × Byte)) (u : State) : Prop
  | reset (hp : u.poll = .initReset) (h : u = s)
  | status (hp : u.poll = .initStatus) (hres : u.result = s.result) (h : InitSince s s.drv [] [] [.tx [s.params.chip.cmdReset] []] u)
  | failed (v : Byte) (hv : v &&& s.params.chip.statusMask ≠ s.params.chip.statusExpect) (hp : u.poll = .idle)
      (hres : u.result = some (.inited (.error .controllerNotPresent)))
      (h : InitSince s s.drv [] [] (initOpening s.params.chip v) u)
  | writes (v : Byte) (hv : v &&& s.params.chip.statusMask = s.params.chip.statusExpect) {made rest : List (Byte × Byte)}
      (hlist : made ++ rest = list) (hp : u.poll = .initWrites rest) (hres : u.result = s.result)
      (h : InitSince s s.drv (writtenRegs [] made) [] (initOpening s.params.chip v ++ writeEvents s.params.chip made) u)
  | modeWrite (v : Byte) (hv : v &&& s.params.chip.statusMask = s.params.chip.statusExpect) (hp : u.poll = .modeWrite)
      (hres : u.result = s.result)
      (h : InitSince s s.drv (writtenRegs [] list) [] (initOpening s.params.chip v ++ writeEvents s.params.chip list) u)
  | mode (v : Byte) (hv : v &&& s.params.chip.statusMask = s.params.chip.statusExpect)
      (h : ModeAt s (initRegs s.params.chip list) [] (initEvents s.params.chip v list) u)
  | register (v v' : Byte) (polls : List Event) (stored : Option IdPair)
      (hv : v &&& s.params.chip.statusMask = s.params.chip.statusExpect) (hpolls : ModePolls s.params.chip polls)
      (hv' : v' &&& s.params.chip.modeStatMask = s.params.chip.modeStatNormal)
      (hstored : stored = none ∨ stored = s.env.storage) (hp : u.poll = .initRegister)
      (h : InitSince s (s.drv.initialized s.params stored) (initRegs s.params.chip list) []
        (initEvents s.params.chip v list ++ polls ++ [readEvent s.params.chip s.params.chip.regStatus v']) u)
  | returned (v v' : Byte) (polls : List Event) (stored : Option IdPair)
      (hv : v &&& s.params.chip.statusMask = s.params.chip.statusExpect) (hpolls : ModePolls s.params.chip polls)
      (hv' : v' &&& s.params.chip.modeStatMask = s.params.chip.modeStatNormal)
      (hstored : stored = none ∨ stored = s.env.storage) (hp : u.poll = .idle) (hres : u.result = some (.inited (.ok ())))
      (h : InitSince s (s.drv.initialized s.params stored).registered (initRegs s.params.chip list) []
        (initEvents s.params.chip v list ++ polls ++ [readEvent s.params.chip s.params.chip.regStatus v']) u)

section

variable {s u : State} {list : List (Byte × Byte)}

/-- Step 2: an unexpected status ends INITIALIZE, the expected one starts the register writes. -/
theorem initStatusStep_initAt (hres : u.result = s.result) (hlist : u.initWriteList = list)
    (h : InitSince s s.drv [] [] [.tx [s.params.chip.cmdReset] []] u) : InitAt s list (initStatusStep u) := by
  have hread := h.regRead u.params.chip.regStatus
  unfold initStatusStep
  dsimp only
  rw [h.params] at hread ⊢
  split
  case isTrue hv => exact .failed _ hv rfl rfl (hread.ret _)
  case isFalse hv =>
    refine .writes _ (not_not.1 hv) (made := []) hlist rfl hres ?_
    rw [writeEvents, List.map_nil, List.append_nil]
    exact hread.goto _

/-- Steps 3 to 5, one write. -/
theorem initWritesStep_initAt {v : Byte} (hv : v &&& s.params.chip.statusMask = s.params.chip.statusExpect)
    {made rest : List (Byte × Byte)} (hlist : made ++ rest = list) (hres : u.result = s.result)
    (h : InitSince s s.drv (writtenRegs [] made) [] (initOpening s.params.chip v ++ writeEvents s.params.chip made) u) :
    InitAt s list (initWritesStep rest u) := by
  cases rest with
  | nil =>
    rw [List.append_nil] at hlist
    subst hlist
    exact .modeWrite v hv rfl hres (h.goto _)
  | cons w rest =>
    obtain ⟨a, x⟩ := w
    refine .writes v hv (made := made ++ [(a, x)]) (by rw [List.append_assoc]; exact hlist) rfl hres ?_
    rw [writtenRegs_concat, writeEvents_concat, ← List.append_assoc]
    exact (h.regWrite a x).goto _

/-- Step 6's register write. -/
theorem modeWriteStep_initAt {v : Byte} (hv : v &&& s.params.chip.statusMask = s.params.chip.statusExpect)
    (hres : u.result = s.result)
    (h : InitSince s s.drv (writtenRegs [] list) [] (initOpening s.params.chip v ++ writeEvents s.params.chip list) u) :
    InitAt s list (modeWriteStep u) := by
  have hwrite := h.regWrite u.params.chip.regMode u.params.chip.modeNormal
  refine .mode v hv (.clock rfl hres ?_)
  rw [initRegs, writtenRegs_concat, initEvents]
  unfold modeWriteStep
  rw [h.params] at hwrite ⊢
  exact hwrite.goto _

/-- Step 7. -/
theorem initStateStep_initAt {v v' : Byte} {polls : List Event}
    (hv : v &&& s.params.chip.statusMask = s.params.chip.statusExpect) (hpolls : ModePolls s.params.chip polls)
    (hv' : v' &&& s.params.chip.modeStatMask = s.params.chip.modeStatNormal)
    (h : InitSince s s.drv (initRegs s.params.chip list) []
      (initEvents s.params.chip v list ++ polls ++ [readEvent s.params.chip s.params.chip.regStatus v']) u) :
    InitAt s list (initStateStep u) := by
  have hstored : u.loadSelfId.1 = none ∨ u.loadSelfId.1 = s.env.storage := by
    rw [← h.storage]
    exact loadSelfId_value_cases u
  refine .register v v' polls u.loadSelfId.1 hv hpolls hv' hstored rfl ⟨h.params, h.ctx, h.program, ?_, ?_, ?_, h.chip, h.hist, ?_⟩
  · exact u.env.takeStore_storage.trans h.storage
  · exact u.env.takeStore_handed.trans h.handed
  · rw [← h.drv, ← h.params]
    rfl
  · exact h.clock.trans_eq u.env.takeStore_clock.symm

/-- Step 6 after its register write, and step 7 where it ends well. -/
theorem ModeAt.initAt_pollContinue {v : Byte} (hv : v &&& s.params.chip.statusMask = s.params.chip.statusExpect)
    (hu : ModeAt s (initRegs s.params.chip list) [] (initEvents s.params.chip v list) u) (hidle : u.poll ≠ .idle) :
    ∃ w, pollContinue u = .next w ∧ InitAt s list w := by
  cases hin : u.poll.inMode with
  | true =>
    obtain ⟨w, hw, hAt⟩ := modeAt_pollContinue hu hin
    exact ⟨w, hw, .mode v hv hAt⟩
  | false =>
    cases hu with
    | ok v' hp hpolls hv' _ h =>
      unfold pollContinue
      rw [hp]
      exact ⟨_, rfl, initStateStep_initAt hv hpolls hv' h⟩
    | timeout hp => exact absurd hp hidle
    | clock hp | read hp | time hp => rw [hp] at hin; cases hin

/-- POLL's micro-step leads from each of INITIALIZE's positions to the next one, or to a return. -/
theorem initAt_pollContinue {c : Cfg} {ws : List (Byte × Byte)} (hg : s.drv.given = some c)
    (hl : s.params.oscTable.lookup c.oscillatorHz = some ws)
    (hlist : ws ++ s.params.chip.acceptAll ++ [(s.params.chip.regInte, s.params.chip.inteRx)] = list) (hu : InitAt s list u)
    (hidle : u.poll ≠ .idle) : ∃ v, pollContinue u = .next v ∧ InitAt s list v := by
  unfold pollContinue
  cases hu with
  | reset hp h =>
    subst h
    rw [hp]
    exact ⟨_, rfl, .status rfl rfl ⟨rfl, rfl, rfl, rfl, rfl, rfl, rfl, rfl, le_rfl⟩⟩
  | status hp hres h =>
    have hwrites : u.initWriteList = list := by
      rw [initWriteList_eq (by rw [hp]; rfl) (by rw [h.drv, hg]) (by rw [h.params, hl]), h.params, hlist]
    rw [hp]
    exact ⟨_, rfl, initStatusStep_initAt hres hwrites h⟩
  | writes v hv hrest hp hres h =>
    rw [hp]
    exact ⟨_, rfl, initWritesStep_initAt hv hrest hres h⟩
  | modeWrite v hv hp hres h =>
    rw [hp]
    exact ⟨_, rfl, modeWriteStep_initAt hv hres h⟩
  | mode v hv h => exact h.initAt_pollContinue hv hidle
  | register v v' polls stored hv hpolls hv' hstored hp h =>
    rw [hp]
    refine ⟨_, rfl, .returned v v' polls stored hv hpolls hv' hstored rfl rfl
      ⟨h.params, h.ctx, h.program, h.storage, h.handed, ?_, h.chip, h.hist, h.clock⟩⟩
    rw [← h.drv]
    rfl
  | failed _ _ hp | returned _ _ _ _ _ _ _ _ hp => exact absurd hp hidle

end

/-- Settles O26: the call starts INITIALIZE at its step 1, and its run ends at one of `InitAt`'s three returns. -/
theorem initializeOutcomes : Obligations.InitializeOutcomes := by
  intro b c l hz ws s hc hp hm hl
  refine ⟨exec_initDriver hc hp hm hl, fun old => ?_, fun k t hcall hidle => ?_⟩
  · exact (exec_initDriver (s := s.setDrv { s.drv with given := old }) hc hp hm hl).trans (exec_initDriver hc hp hm hl).symm
  · rw [callRun_of_exec (exec_initDriver hc hp hm hl)] at hcall
    have hstep (u : State) := initAt_pollContinue (s := (s.setDrv { s.drv with given := some ⟨b, c, l, hz⟩ }).start .initReset)
      (u := u) rfl hl rfl
    cases pollRun_preserves hstep (.reset rfl rfl) hcall with
    | failed v hv _ hres h =>
      exact ⟨h.params, h.ctx, h.program, h.storage, h.handed, by rw [h.chip], v,
        .inl ⟨hv, h.hist, h.drv, t.cfg_unset (by rw [h.drv]; exact hm) (by rw [hidle]; rfl), by rw [h.chip], hres⟩⟩
    | mode v hv h =>
      cases h with
      | timeout _ hpolls hne hres hlate h =>
        exact ⟨h.params, h.ctx, h.program, h.storage, h.handed, by rw [h.chip], v,
          .inr ⟨hv, by rw [h.chip]; rfl, _, hpolls, .inl ⟨hne, by simp [h.hist, initEvents, initOpening], hlate, h.drv,
            t.cfg_unset (by rw [h.drv]; exact hm) (by rw [hidle]; rfl), hres⟩⟩⟩
      | clock hq | read hq | time hq | ok _ hq => rw [hq] at hidle; cases hidle
    | returned v v' polls stored hv hpolls hv' hstored _ hres h =>
      exact ⟨h.params, h.ctx, h.program, h.storage, h.handed, by rw [h.chip], v,
        .inr ⟨hv, by rw [h.chip]; rfl, polls, hpolls, .inr ⟨v', hv', by simp [h.hist, initEvents, initOpening], hres,
          by rw [t.cfg_ready (by rw [h.drv]; rfl), h.drv]; rfl, stored, hstored, h.drv⟩⟩⟩
    | reset hq | status hq | writes _ _ _ hq | modeWrite _ _ hq | register _ _ _ _ _ _ _ _ hq => rw [hq] at hidle; cases hidle

end Sys2Proof.Machine
end

section
/-! SUPPORT. Every wait ends when the clock advances (20_memory R78): INITIALIZE, MODE_SET and SEND, run by POLL alone, return
whatever the controller answers. Each proof goes backwards from the return, one micro-step at a time. -/

namespace Sys2Proof.Machine

variable {u v : State} {m n : Nat}

/-! ### Runs that return -/

/-- POLL alone brings `u` to its operation's return within `n` micro-steps. -/
def ReturnsWithin (n : Nat) (u : State) : Prop := ∃ t, pollRun n u = .next t ∧ t.poll = .idle

theorem ReturnsWithin.of_idle (hp : u.poll = .idle) : ReturnsWithin n u := ⟨u, pollRun_idle hp n, hp⟩

theorem ReturnsWithin.of_step (h : ReturnsWithin n v) (hp : u.poll ≠ .idle) (hv : pollContinue u = .next v) :
    ReturnsWithin (n + 1) u := by
  obtain ⟨t, ht, hidle⟩ := h
  exact ⟨t, by rw [pollRun_succ hp hv, ht], hidle⟩

theorem ReturnsWithin.succ (h : ReturnsWithin n u) : ReturnsWithin (n + 1) u := by
  induction n generalizing u with
  | zero =>
    obtain ⟨t, ht, hidle⟩ := h
    cases ht
    exact .of_idle hidle
  | succ n ih =>
    by_cases hp : u.poll = .idle
    · exact .of_idle hp
    · obtain ⟨t, ht, hidle⟩ := h
      rw [pollRun, if_neg hp] at ht
      split at ht
      next v hv => exact (ih ⟨t, ht, hidle⟩).of_step hp hv
      · cases ht
      · cases ht

theorem ReturnsWithin.mono (h : ReturnsWithin m u) (hmn : m ≤ n) : ReturnsWithin n u :=
  Nat.le_induction h (fun _ _ => ReturnsWithin.succ) n hmn

/-! ### A clock that advances -/

/-- At least `n` readings of the clock are scripted, and each is at least 1 ms later than the one before. -/
def Ticking (n : Nat) (u : State) : Prop := n ≤ u.env.ticks.length ∧ ∀ d ∈ u.env.ticks, 1 ≤ d

/-- A reading of the clock takes one of them. -/
theorem Ticking.now (h : Ticking (n + 1) u) : Ticking n u.now.2 ∧ u.env.clock + 1 ≤ u.now.1 := by
  obtain ⟨hlen, hpos⟩ := h
  rw [Ticking, State.now_env, State.now_value, Env.takeTick]
  cases hticks : u.env.ticks with
  | nil => simp [hticks] at hlen
  | cons d ds =>
    rw [hticks] at hlen hpos
    exact ⟨⟨Nat.le_of_succ_le_succ hlen, fun e he => hpos e (List.mem_cons_of_mem d he)⟩, Nat.add_le_add_left (hpos d List.mem_cons_self) _⟩

theorem Ticking.mono (h : Ticking n u) (hmn : m ≤ n) : Ticking m u := ⟨hmn.trans h.1, h.2⟩

theorem Ticking.of_ticks (h : Ticking n u) (hv : v.env.ticks = u.env.ticks) : Ticking n v := by
  rw [Ticking, hv]
  exact h

/-! ### MODE_SET -/

/-- POLL alone brings MODE_SET to its end, at INITIALIZE's step 7 or with INITIALIZE's return. -/
def ModeEnds (u : State) : Prop := ∃ k t, modeRun k u = .next t ∧ (t.poll = .initState ∨ t.poll = .idle)

theorem ModeEnds.of_end (hp : u.poll = .initState ∨ u.poll = .idle) : ModeEnds u := ⟨0, u, rfl, hp⟩

theorem ModeEnds.of_step (h : ModeEnds v) (hp : u.poll.inMode = true) (hv : pollContinue u = .next v) : ModeEnds u := by
  obtain ⟨k, t, ht, hend⟩ := h
  exact ⟨k + 1, t, by rw [modeRun_succ hp hv, ht], hend⟩

/-- A poll: MODE_SET ends there or goes on with the time test. -/
theorem modeEnds_of_modeTime {t0 : Nat} (hp : u.poll = .modeRead t0)
    (h : ∀ v, v.poll = .modeTime t0 → v.params = u.params → v.env.clock = u.env.clock → v.env.ticks = u.env.ticks → ModeEnds v) :
    ModeEnds u := by
  refine .of_step (v := modeReadStep t0 u) ?_ (by rw [hp]; rfl) (by rw [pollContinue, hp])
  unfold modeReadStep
  dsimp only
  split
  · exact .of_end (.inl rfl)
  · exact h _ rfl rfl (by simp) (by simp)

/-- The polls end: with `x` readings left, each 1 ms later, `T_MODE_MS` is over after them. -/
theorem modeEnds_of_modeRead {x t0 : Nat} (hp : u.poll = .modeRead t0) (hticks : Ticking x u)
    (hlate : t0 + u.params.tModeMs ≤ u.env.clock + x) : ModeEnds u := by
  induction x generalizing u with
  | zero =>
    refine modeEnds_of_modeTime hp fun v hv hparams hclock _ => ?_
    refine .of_step (v := modeTimeStep t0 v) ?_ (by rw [hv]; rfl) (by rw [pollContinue, hv])
    have hnow := v.env.clock_le_takeTick
    have hend : modeTimeStep t0 v = v.now.2.raiseInit := if_pos (by rw [State.now_value, hparams]; omega)
    exact .of_end (.inr (by rw [hend]; rfl))
  | succ x ih =>
    refine modeEnds_of_modeTime hp fun v hv hparams hclock hscript => ?_
    refine .of_step (v := modeTimeStep t0 v) ?_ (by rw [hv]; rfl) (by rw [pollContinue, hv])
    obtain ⟨hrest, hnow⟩ := (hticks.of_ticks hscript).now
    unfold modeTimeStep
    split
    · exact .of_end (.inr rfl)
    · refine ih rfl (hrest.of_ticks rfl) ?_
      rw [State.goto_env, State.now_env, Env.takeTick_clock, State.goto_params, State.now_params, hparams]
      rw [State.now_value] at hnow
      omega

/-- MODE_SET after its register write. -/
theorem modeEnds_of_modeClock (hp : u.poll = .modeClock) (hticks : Ticking (u.params.tModeMs + 1) u) : ModeEnds u := by
  refine .of_step (v := modeClockStep u) ?_ (by rw [hp]; rfl) (by rw [pollContinue, hp])
  refine modeEnds_of_modeRead (x := u.params.tModeMs) rfl (hticks.now.1.of_ticks rfl) (le_of_eq ?_)
  simp [modeClockStep]

/-- MODE_SET, called. -/
theorem modeSetRun_ends (hc : u.ctx = .poll) (hp : u.poll = .modeWrite) (hticks : Ticking (u.params.tModeMs + 1) u) :
    ∃ k t, modeSetRun k u = .next t ∧ t.poll.inMode = false := by
  obtain ⟨k, t, ht, hend⟩ := modeEnds_of_modeClock (u := modeWriteStep u) rfl (hticks.of_ticks rfl)
  refine ⟨k, t, (modeSetRun_of_exec (exec_modeSet hc hp) k).trans ht, ?_⟩
  rcases hend with hq | hq <;> rw [hq] <;> rfl

/-! ### INITIALIZE -/

/-- POLL alone brings `u` to its operation's return. -/
def Returns (u : State) : Prop := ∃ n, ReturnsWithin n u

theorem Returns.of_idle (hp : u.poll = .idle) : Returns u := ⟨0, .of_idle hp⟩

theorem Returns.of_step (h : Returns v) (hp : u.poll ≠ .idle) (hv : pollContinue u = .next v) : Returns u := by
  obtain ⟨n, hn⟩ := h
  exact ⟨n + 1, hn.of_step hp hv⟩

/-- POLL's run goes on where MODE_SET's ends. -/
theorem Returns.of_modeRun {k : Nat} (h : Returns v) (hrun : modeRun k u = .next v) : Returns u := by
  induction k generalizing u with
  | zero =>
    cases hrun
    exact h
  | succ k ih =>
    rw [modeRun] at hrun
    split at hrun
    next hin =>
      split at hrun
      next w hw => exact (ih hrun).of_step (fun hp => by rw [hp] at hin; cases hin) hw
      · cases hrun
      · cases hrun
    next =>
      cases hrun
      exact h

/-- Steps 7 and 8 take one micro-step each. -/
theorem returns_of_initState (hp : u.poll = .initState) : Returns u := by
  refine .of_step (v := initStateStep u) ?_ (by simp [hp]) (by rw [pollContinue, hp])
  exact .of_step (v := initRegisterStep (initStateStep u)) (.of_idle rfl) PollPos.noConfusion rfl

theorem returns_of_modeClock (hp : u.poll = .modeClock) (hticks : Ticking (u.params.tModeMs + 1) u) : Returns u := by
  obtain ⟨k, t, ht, hq | hq⟩ := modeEnds_of_modeClock hp hticks
  · exact .of_modeRun (returns_of_initState hq) ht
  · exact .of_modeRun (.of_idle hq) ht

/-- Steps 3 to 6. -/
theorem returns_of_initWrites {ws : List (Byte × Byte)} (hp : u.poll = .initWrites ws)
    (hticks : Ticking (u.params.tModeMs + 1) u) : Returns u := by
  induction ws generalizing u with
  | nil =>
    refine .of_step (v := u.goto .modeWrite) ?_ (by simp [hp]) (by rw [pollContinue, hp]; rfl)
    refine .of_step (v := modeWriteStep (u.goto .modeWrite)) ?_ PollPos.noConfusion rfl
    exact returns_of_modeClock rfl (hticks.of_ticks rfl)
  | cons w ws ih =>
    refine .of_step (v := initWritesStep (w :: ws) u) ?_ (by simp [hp]) (by rw [pollContinue, hp])
    exact ih rfl (hticks.of_ticks rfl)

/-- Step 2. -/
theorem returns_of_initStatus (hp : u.poll = .initStatus) (hticks : Ticking (u.params.tModeMs + 1) u) : Returns u := by
  refine .of_step (v := initStatusStep u) ?_ (by simp [hp]) (by rw [pollContinue, hp])
  unfold initStatusStep
  dsimp only
  split
  · exact .of_idle rfl
  · exact returns_of_initWrites rfl (hticks.of_ticks (by simp))

/-- Step 1. -/
theorem returns_of_initReset (hp : u.poll = .initReset) (hticks : Ticking (u.params.tModeMs + 1) u) : Returns u := by
  refine .of_step (v := initResetStep u) ?_ (by simp [hp]) (by rw [pollContinue, hp])
  exact returns_of_initStatus rfl (hticks.of_ticks rfl)

/-- Settles O27: one reading starts MODE_SET's wait and `T_MODE_MS` more end it (`modeEnds_of_modeRead`). -/
theorem initializeFinishesWhenClockAdvances : Obligations.InitializeFinishesWhenClockAdvances := by
  intro s hc hlen hpos
  have hticks : Ticking (s.params.tModeMs + 1) s := ⟨Nat.le_of_succ_le hlen, hpos⟩
  refine ⟨fun b c l hz hp hm hl => ?_, fun hp => modeSetRun_ends hc hp hticks⟩
  obtain ⟨ws, hws⟩ := Option.isSome_iff_exists.1 hl
  have hexec := exec_initDriver (b := b) (c := c) (l := l) hc hp hm hws
  obtain ⟨k, t, ht, hidle⟩ :=
    returns_of_initReset (u := (s.setDrv { s.drv with given := some ⟨b, c, l, hz⟩ }).start .initReset) rfl (hticks.of_ticks rfl)
  exact ⟨k, t, (callRun_of_exec hexec k).trans ht, hidle⟩

/-! ### SEND -/

/-- A poll of the transmit-control register: SEND returns or goes on with the time test. -/
theorem returnsWithin_of_sendTime {a : Attempt} {t0 : Nat} (hp : u.poll = .sendPoll a t0)
    (h : ∀ v, v.poll = .sendTime a t0 → v.env.clock = u.env.clock → v.env.ticks = u.env.ticks → ReturnsWithin n v) :
    ReturnsWithin (n + 1) u := by
  refine .of_step (v := sendPollStep a t0 u) ?_ (by simp [hp]) (by rw [pollContinue, hp])
  unfold sendPollStep
  dsimp only
  split
  · exact .of_idle rfl
  · exact h _ rfl (by simp) (by simp)

/-- S6d: with `x + 1` readings for the attempt's wait, each 1 ms later, `T_TX_MS` is over after them; `y` more are left then. -/
theorem returnsWithin_of_sendPoll {a : Attempt} {x y t0 : Nat} (hp : u.poll = .sendPoll a t0) (hticks : Ticking (y + (x + 1)) u)
    (hlate : t0 + Config.tTxMs ≤ u.env.clock + (x + 1))
    (hafter : ∀ v, v.poll = .sendAbort a → Ticking y v → ReturnsWithin n v) : ReturnsWithin (n + 2 * (x + 1)) u := by
  induction x generalizing u with
  | zero =>
    refine returnsWithin_of_sendTime hp fun v hv hclock hscript => ?_
    refine .of_step (v := sendTimeStep a t0 v) ?_ (by simp [hv]) (by rw [pollContinue, hv])
    obtain ⟨hrest, hnow⟩ := (hticks.of_ticks hscript).now
    exact hafter _ (if_pos (by omega)) (hrest.of_ticks rfl)
  | succ x ih =>
    refine returnsWithin_of_sendTime hp fun v hv hclock hscript => ?_
    refine .of_step (v := sendTimeStep a t0 v) ?_ (by simp [hv]) (by rw [pollContinue, hv])
    obtain ⟨hrest, hnow⟩ := (hticks.of_ticks hscript).now
    by_cases hend : v.now.1 - t0 ≥ Config.tTxMs
    · have hy : Ticking y (sendTimeStep a t0 v) := (hrest.mono (Nat.le_add_right y (x + 1))).of_ticks rfl
      exact (hafter _ (if_pos hend) hy).mono (Nat.le_add_right n (2 * (x + 1)))
    · refine ih (if_neg hend) (hrest.of_ticks rfl) ?_
      rw [sendTimeStep, State.goto_env, State.now_env, Env.takeTick_clock]
      rw [State.now_value] at hnow
      omega

/-- S6c and S6d. -/
theorem returnsWithin_of_sendClock {a : Attempt} {y : Nat} (hp : u.poll = .sendClock a) (hticks : Ticking (y + 101) u)
    (hafter : ∀ v, v.poll = .sendAbort a → Ticking y v → ReturnsWithin n v) : ReturnsWithin (n + 201) u := by
  refine .of_step (n := n + 200) (v := sendClockStep a u) ?_ (by simp [hp]) (by rw [pollContinue, hp])
  refine returnsWithin_of_sendPoll (x := 99) (y := y) rfl (hticks.now.1.of_ticks rfl) (le_of_eq ?_) hafter
  simp [sendClockStep, Config.tTxMs]

/-- The second attempt, from its request on. -/
theorem returnsWithin_of_retry (hp : u.poll = .sendRequest .second) (hticks : Ticking 101 u) : ReturnsWithin 204 u := by
  refine .of_step (n := 203) (v := sendRequestStep .second u) ?_ (by simp [hp]) (by rw [pollContinue, hp])
  refine returnsWithin_of_sendClock (n := 2) (y := 0) rfl (hticks.of_ticks rfl) fun v hv _ => ?_
  refine .of_step (v := sendAbortStep .second v) ?_ (by simp [hv]) (by rw [pollContinue, hv])
  exact .of_step (v := sendGiveUpStep (sendAbortStep .second v)) (.of_idle (n := 0) rfl) PollPos.noConfusion rfl

/-- The first attempt, from its wait on. -/
theorem returnsWithin_of_firstClock (hp : u.poll = .sendClock .first) (hticks : Ticking 202 u) : ReturnsWithin 406 u := by
  refine returnsWithin_of_sendClock (n := 205) (y := 101) hp hticks fun v hv hrest => ?_
  refine .of_step (v := sendAbortStep .first v) ?_ (by simp [hv]) (by rw [pollContinue, hv])
  exact returnsWithin_of_retry rfl (hrest.of_ticks rfl)

/-- S6b. -/
theorem returnsWithin_of_readback (hp : u.poll = .sendReadback) (hticks : Ticking 202 u) : ReturnsWithin 407 u := by
  refine .of_step (n := 406) (v := sendReadbackStep u) ?_ (by simp [hp]) (by rw [pollContinue, hp])
  unfold sendReadbackStep
  dsimp only
  split
  · exact .of_idle rfl
  · exact returnsWithin_of_firstClock rfl (hticks.of_ticks (by simp))

/-- S3 to S6a. -/
theorem returnsWithin_of_sendRecord {c : Parsed} (hp : u.poll = .sendRecord c) (hticks : Ticking 202 u) :
    ReturnsWithin 411 u := by
  refine .of_step (v := sendRecordStep c u) ?_ (by simp [hp]) (by rw [pollContinue, hp])
  generalize hrec : mkTxRec u.params.chip c.ext c.idfield c.rtr c.data = t
  rw [sendRecordStep, hrec]
  refine .of_step (n := 409) (v := sendMaskStep t (u.goto (.sendMask t))) ?_ PollPos.noConfusion rfl
  refine .of_step (n := 408) (v := sendLoadStep t (sendMaskStep t (u.goto (.sendMask t)))) ?_ PollPos.noConfusion rfl
  refine .of_step (n := 407) (v := sendRequestStep .first (sendLoadStep t (sendMaskStep t (u.goto (.sendMask t))))) ?_
    PollPos.noConfusion rfl
  exact returnsWithin_of_readback rfl (hticks.of_ticks rfl)

/-- S2. -/
theorem returnsWithin_of_sendAbsent {c : Parsed} (hp : u.poll = .sendAbsent c) (hticks : Ticking 202 u) :
    ReturnsWithin 412 u := by
  refine .of_step (n := 411) (v := sendAbsentStep c u) ?_ (by simp [hp]) (by rw [pollContinue, hp])
  unfold sendAbsentStep
  split
  · exact .of_idle rfl
  · exact returnsWithin_of_sendRecord rfl (hticks.of_ticks rfl)

/-- Settles O33: two waits of at most 101 readings each, and 412 micro-steps at most. -/
theorem sendFinishesWhenClockAdvances : Obligations.SendFinishesWhenClockAdvances := by
  intro w s hc hp hm hlen hpos
  cases hw : checkShape w with
  | error e => exact ⟨_, callRun_send_error hc hp hm hw 420, rfl⟩
  | ok c =>
    have hfirst : ReturnsWithin 412 (s.start (.sendAbsent c)) := returnsWithin_of_sendAbsent rfl ⟨hlen, hpos⟩
    obtain ⟨t, ht, hidle⟩ := hfirst.mono (n := 420) (by decide)
    exact ⟨t, (callRun_of_exec (execSend_ok hc hp hm hw) 420).trans ht, hidle⟩

end Sys2Proof.Machine
end

section
/-! SUPPORT. What SEND leaves alone (43_send R184, R189, 10_state R37), at each of POLL's positions in it. -/

namespace Sys2Proof.Machine

/-- What POLL's position in SEND of the fields `c` carries: the fields until S3, then a record of their length until S5. -/
def PollPos.carries (c : Parsed) : PollPos → Prop
  | .sendAbsent c' | .sendRecord c' => c' = c
  | .sendMask r | .sendLoad r => r.length = 5 + c.data.length
  | p => p = .idle ∨ p.inSend = true

/-- `u` differs from the state `s` of SEND's call only in what SEND of a frame with `len` data bytes may change, POLL's position and
the result apart. -/
structure SendKeeps (s : State) (len : Nat) (u : State) : Prop where
  drv : u.drv = { s.drv with absent := u.drv.absent, irqMask := u.drv.irqMask }
  params : u.params = s.params
  ctx : u.ctx = s.ctx
  program : u.program = s.program
  storage : u.env.storage = s.env.storage
  handed : u.env.handed = s.env.handed
  regs : ∀ x, x ≠ s.params.chip.regTxctrl.toNat → Memory.read u.chip.regs x = Memory.read s.chip.regs x
  txBuf : ∀ x, 5 + len ≤ x → Memory.read u.chip.txBuf x = Memory.read s.chip.txBuf x

namespace SendKeeps

variable {s u : State} {len : Nat}

theorem start (s : State) (len : Nat) (p : PollPos) : SendKeeps s len (s.start p) := ⟨rfl, rfl, rfl, rfl, rfl, rfl, fun _ _ => rfl, fun _ _ => rfl⟩

theorem goto (h : SendKeeps s len u) (p : PollPos) : SendKeeps s len (u.goto p) :=
  ⟨h.drv, h.params, h.ctx, h.program, h.storage, h.handed, h.regs, h.txBuf⟩

theorem ret (h : SendKeeps s len u) (r : Ret) : SendKeeps s len (u.ret r) :=
  ⟨h.drv, h.params, h.ctx, h.program, h.storage, h.handed, h.regs, h.txBuf⟩

theorem setMask (h : SendKeeps s len u) (b : Bool) : SendKeeps s len (u.setMask b) :=
  ⟨congrArg (fun d : Driver => { d with irqMask := b }) h.drv, h.params, h.ctx, h.program, h.storage, h.handed, h.regs, h.txBuf⟩

theorem latchAbsent (h : SendKeeps s len u) : SendKeeps s len u.latchAbsent :=
  ⟨by rw [State.latchAbsent_drv, h.drv], by simpa using h.params, by simpa using h.ctx, by simpa using h.program,
    by simpa using h.storage, by simpa using h.handed, by simpa using h.regs, by simpa using h.txBuf⟩

theorem now (h : SendKeeps s len u) : SendKeeps s len u.now.2 :=
  ⟨h.drv, h.params, h.ctx, h.program, by simpa using h.storage, by simpa using h.handed, h.regs, h.txBuf⟩

theorem regRead (h : SendKeeps s len u) (a : Byte) : SendKeeps s len (u.regRead a).2 :=
  ⟨h.drv, h.params, h.ctx, h.program, by simpa using h.storage, by simpa using h.handed, h.regs, h.txBuf⟩

/-- A request and an abort write the transmit-control register. -/
theorem txctrlWritten (h : SendKeeps s len u) {v : State} {x : Byte} (hdrv : v.drv = u.drv) (hparams : v.params = u.params)
    (hctx : v.ctx = u.ctx) (hprogram : v.program = u.program) (henv : v.env = u.env)
    (hchip : v.chip = ⟨false, Memory.write u.chip.regs u.params.chip.regTxctrl.toNat x, u.chip.txBuf⟩) : SendKeeps s len v := by
  refine ⟨hdrv ▸ h.drv, hparams.trans h.params, hctx.trans h.ctx, hprogram.trans h.program, henv ▸ h.storage, henv ▸ h.handed,
    fun a ha => ?_, fun a ha => ?_⟩
  · rw [hchip, Memory.read_write, h.params, if_neg ha]
    exact h.regs a ha
  · rw [hchip]
    exact h.txBuf a ha

theorem txRequest (h : SendKeeps s len u) (p : Prio) : SendKeeps s len (u.txRequest p) :=
  h.txctrlWritten rfl rfl rfl rfl rfl rfl

theorem txAbort (h : SendKeeps s len u) : SendKeeps s len u.txAbort :=
  h.txctrlWritten rfl rfl rfl rfl rfl rfl

theorem txLoad (h : SendKeeps s len u) {r : List Byte} (hr : r.length = 5 + len) : SendKeeps s len (u.txLoad r) := by
  refine ⟨h.drv, h.params, h.ctx, h.program, h.storage, h.handed, h.regs, fun a ha => ?_⟩
  rw [State.txLoad_chip, Memory.read_writeAll, if_neg (by omega)]
  exact h.txBuf a ha

end SendKeeps

section

variable {s u : State} {c : Parsed}

/-- S6b: the absence found is latched. -/
theorem sendReadbackStep_sendKeeps (h : SendKeeps s c.data.length u) :
    SendKeeps s c.data.length (sendReadbackStep u) ∧ (sendReadbackStep u).poll.carries c := by
  unfold sendReadbackStep
  dsimp only
  split
  · exact ⟨((h.regRead _).latchAbsent.setMask false).ret _, .inl rfl⟩
  · exact ⟨(h.regRead _).goto _, .inr rfl⟩

/-- S6d's poll. -/
theorem sendPollStep_sendKeeps (a : Attempt) (t0 : Nat) (h : SendKeeps s c.data.length u) :
    SendKeeps s c.data.length (sendPollStep a t0 u) ∧ (sendPollStep a t0 u).poll.carries c := by
  unfold sendPollStep
  dsimp only
  split
  · exact ⟨((h.regRead _).setMask false).ret _, .inl rfl⟩
  · exact ⟨(h.regRead _).goto _, .inr rfl⟩

/-- POLL's micro-step inside SEND keeps what SEND leaves alone. -/
theorem sendKeeps_pollContinue (h : SendKeeps s c.data.length u) (hc : u.poll.carries c) (hidle : u.poll ≠ .idle) :
    ∃ v, pollContinue u = .next v ∧ SendKeeps s c.data.length v ∧ v.poll.carries c := by
  unfold pollContinue
  cases hp : u.poll <;> rw [hp] at hc hidle
  case sendAbsent c' =>
    refine ⟨_, rfl, ?_⟩
    unfold sendAbsentStep
    split
    · exact ⟨h.ret _, .inl rfl⟩
    · exact ⟨h.goto _, hc⟩
  case sendRecord c' =>
    subst hc
    exact ⟨_, rfl, h.goto _, mkTxRec_length _ _ _ _ _⟩
  case sendMask r => exact ⟨_, rfl, (h.setMask true).goto _, hc⟩
  case sendLoad r => exact ⟨_, rfl, (h.txLoad hc).goto _, .inr rfl⟩
  case sendRequest a =>
    refine ⟨_, rfl, (h.txRequest _).goto _, ?_⟩
    cases a <;> exact .inr rfl
  case sendReadback => exact ⟨_, rfl, sendReadbackStep_sendKeeps h⟩
  case sendClock a => exact ⟨_, rfl, h.now.goto _, .inr rfl⟩
  case sendPoll a t0 => exact ⟨_, rfl, sendPollStep_sendKeeps a t0 h⟩
  case sendTime a t0 =>
    refine ⟨_, rfl, h.now.goto _, ?_⟩
    rw [sendTimeStep, State.goto_poll]
    split <;> exact .inr rfl
  case sendAbort a =>
    refine ⟨_, rfl, h.txAbort.goto _, ?_⟩
    cases a <;> exact .inr rfl
  case sendGiveUp => exact ⟨_, rfl, (h.setMask false).ret _, .inl rfl⟩
  case idle => exact absurd rfl hidle
  all_goals rcases hc with hc | hc <;> cases hc

end

/-- What is called where SEND is: POLL's context, POLL idle, a live driver. -/
theorem exec_send_next {w : WireString} {s u : State} (h : exec (.send w) s = .next u) :
    s.ctx = .poll ∧ s.poll = .idle ∧ s.drv.mode = .ready := by
  obtain ⟨hc, hp, h⟩ := s.whenIdle_next h
  exact ⟨hc, hp, (s.whenReady_next h).1⟩

/-- Settles O32: a malformed string touches nothing, and SEND of an accepted one keeps `SendKeeps` at every position. -/
theorem sendFrame : Obligations.SendFrame := by
  intro w s t k hcall
  obtain ⟨u, hexec, hrun⟩ := callRun_next hcall
  obtain ⟨hctx, hp, hm⟩ := exec_send_next hexec
  cases hw : checkShape w with
  | error e =>
    rw [callRun_send_error hctx hp hm hw] at hcall
    cases hcall
    exact ⟨rfl, rfl, rfl, rfl, rfl, rfl, fun _ _ => rfl, fun _ _ _ _ => rfl, fun _ _ => rfl⟩
  | ok c =>
    rw [callRun_of_exec (execSend_ok hctx hp hm hw)] at hcall
    obtain ⟨h, -⟩ := pollRun_preserves (P := fun v => SendKeeps s c.data.length v ∧ v.poll.carries c)
      (fun v hv hidle => sendKeeps_pollContinue hv.1 hv.2 hidle) ⟨.start s c.data.length (.sendAbsent c), rfl⟩ hcall
    refine ⟨h.drv, h.params, h.ctx, h.program, h.storage, h.handed, h.regs, fun c' x hc' hx => ?_, fun e he => by cases he⟩
    cases hc'
    exact h.txBuf x hx

end Sys2Proof.Machine
end
